-- ==== Sys2Proof/Word.lean ====
section
/-! DEFINITION. The words of the part: bytes of a frame, the 16 data bits of a table word, the moments of its clock, and
saturating 16-bit counters. -/

namespace Sys2Proof

/-- One byte of a frame. -/
abbrev Byte := BitVec 8

/-- The 16 data bits of a table word (R1), or one word of the NV image. -/
abbrev Word16 := BitVec 16

/-- A moment, or a length of time, in microseconds (log 2). -/
abbrev Time := Nat

/-- A 16-bit counter (00_scope section 6.6). -/
abbrev Counter := BitVec 16

/-- One count: up by 1, staying at 65535 (R30). -/
def Counter.bump (c : Counter) : Counter := if c = 0xFFFF#16 then c else c + 1#16

end Sys2Proof
end

