-- ==== Sys2Proof/Config.lean ====
section
/-! DEFINITION. What the part fixes: the named values its straps, ports and tables use, its periods, and the free values
the manual leaves open. -/

namespace Sys2Proof

/-- The two loom ports (R15). -/
inductive PortId where
  | front
  | rear
deriving DecidableEq, Repr, Inhabited

/-- The port at the other end of a copy (R24, R47). -/
def PortId.other : PortId → PortId
  | .front => .rear
  | .rear => .front

/-- The EARTH strap (R172). -/
inductive Earth where
  | positive
  | negative
deriving DecidableEq, Repr, Inhabited

/-- The LIMP strap, and the variant a LOAD-LIMP names (R172, R174). -/
inductive LimpVariant where
  | separate
  | combined
deriving DecidableEq, Repr, Inhabited

/-- The strap values sampled at power-on (R172). -/
structure Straps where
  addr : BitVec 2
  earth : Earth
  limp : LimpVariant
deriving DecidableEq, Repr, Inhabited

/-- Where the table store's contents came from (R14). -/
inductive TableSource where
  | nv
  | limp
  | modified
deriving DecidableEq, Repr, Inhabited

/-- The ten areas of the table store, in the order of R1. -/
inductive Area where
  | directory
  | route
  | event
  | action
  | load
  | pod
  | descriptor
  | gauge
  | curve
  | parameters
deriving DecidableEq, Repr, Inhabited

namespace Config

/-- One byte time: 10 bit times at 20,000 bit/s, 0.5 ms (R15). -/
abbrev byteTime : Time := 500
/-- 10 ms: the flasher tick and the unit of most reported times (R115, R112). -/
abbrev ms10 : Time := 10000
/-- 20 ms: conversion and ignition debounce (R128, R57). -/
abbrev ms20 : Time := 20000
/-- 100 ms: waits, cool-off, load fade, gauge update (R87, R106, R93, R143). -/
abbrev ms100 : Time := 100000
/-- 500 ms: watch, refresh and stale periods, tach gate (R35, R100, R136, R139). -/
abbrev ms500 : Time := 500000
/-- 1 ms: the least distance of two counted coil pulses (R139). -/
abbrev ms1 : Time := 1000

/-- Part code reported by IDENTIFY (R161). -/
abbrev partCode : Nat := 640
/-- Revision number of the parts the manual describes (R161). -/
abbrev revision : Nat := 1

/-- FREE VALUE (log 9). The word an NV address holds after a programming that failed or was abandoned (R170: "Partly written";
"whatever the programming had reached"): by the draw and the address. -/
opaque nvAfterBrokenProgramming : Nat → Nat → Word16

/-- FREE VALUE (log 10). Data bits, parity bit and fault mark a word of the store holds once the feed has fallen below 2.5 V
(R173): by the draw and the address. -/
opaque lostWord : Nat → Nat → Word16 × Bool × Bool

/-- FREE VALUE (log 10). The table source once the feed has fallen below 2.5 V (R173). -/
opaque lostSource : Nat → TableSource

/-- FREE VALUE (log 10). The kept strap values once the feed has fallen below 2.5 V (R173). -/
opaque lostStraps : Nat → Straps

end Config
end Sys2Proof
end

