-- ==== Sys2Proof/Syntax.lean ====
section
/-! DEFINITION. The commands: one constructor for each row of spec/opcode_table.json. Every command carries `dt`, the
microseconds since the command before it (log 2); events that come together have `dt = 0`. -/

namespace Sys2Proof

/-- What happens to a byte on a port's wire (R15, R16): it begins, or it ends with its eight data bits and with its stop bit
found or not. -/
inductive ByteEdge where
  | begins
  | ends (value : Byte) (stopFound : Bool)
deriving DecidableEq, Repr

/-- A rise of the feed that is a power-on: the strap pins as sampled (R172), and whether the loading of the table store completes before the
feed falls again (R173, log 6). -/
structure FeedRise where
  pins : Straps
  loaded : Bool
deriving DecidableEq, Repr

/-- What of the freeing of a queue's head a FRAME_SENT or a COLLISION stands for, with its port (R27, R29, log 29). R29 lets another
producer's frame come between the freeing and its refill, so that the two can also be taken apart. -/
inductive Freeing where
  /-- The head leaves the queue, and the refill follows at once. -/
  | withRefill (p : PortId)
  /-- The head leaves the queue, and the refill is owed: frames of other producers can be offered before it. -/
  | alone (p : PortId)
  /-- The refill owed by a freeing taken alone. -/
  | refill (p : PortId)
deriving DecidableEq, Repr

/-- The commands of the part (spec/opcode_table.json). A service request's own operands stand in the frame of the SERVING
pool of the port named. -/
inductive Instr where
  /-- POWER_ON: the feed rises to 4.5 V and the reset is a power-on (R172, R173). -/
  | powerOn (dt : Time) (rise : FeedRise)
  /-- BROWN_OUT: the feed rises to 4.5 V after a hold that is not a power-on (R173). -/
  | brownOut (dt : Time)
  /-- LOW_SUPPLY_HOLD: the feed falls below 4.5 V (R173). -/
  | lowSupplyHold (dt : Time)
  /-- FRAME_END: quiet reaches 2 byte times while RECEIVING (R16, R19). -/
  | frameEnd (dt : Time) (p : PortId)
  /-- SKIP_END: quiet reaches 2 byte times while SKIPPING (R16). -/
  | skipEnd (dt : Time) (p : PortId)
  /-- TRANSMIT_START: quiet has reached 3 byte times and the queue is not empty (R16, R25). -/
  | transmitStart (dt : Time) (p : PortId)
  /-- FRAME_SENT: the last byte of the head frame reads back equal (R25). -/
  | frameSent (dt : Time) (part : Freeing)
  /-- COLLISION: a sent byte reads back unequal (R26). -/
  | collision (dt : Time) (part : Freeing)
  /-- TRANSIT_COPY: the transit frame being served on arrival port `p` is copied or discarded (R24). -/
  | transitCopy (dt : Time) (p : PortId)
  /-- ROUTE_WALK: the route engine serves the routed frame handed over by port `p` (R37). -/
  | routeWalk (dt : Time) (p : PortId)
  /-- ACTION_TAKE: the engine's choice at which no slot is DUE, and the take it leads to (R72, R73). -/
  | actionTake (dt : Time)
  /-- CHAIN_RESUME: the lowest DUE slot is resumed (R89). -/
  | chainResume (dt : Time)
  /-- WAIT_EXPIRY: a slot's wait timer expires (R89). -/
  | waitExpiry (dt : Time) (slot : Fin 4)
  /-- WATCH_EXPIRY: a source's watch timer expires (R49). -/
  | watchExpiry (dt : Time) (src : Fin 64)
  /-- IGNITION_INPUT_CHANGE: the raw ignition input goes on or off (R57). -/
  | ignitionInputChange (dt : Time) (on : Bool)
  /-- IGNITION_DEBOUNCE_EXPIRY: the 20 ms debounce timer expires (R57). -/
  | ignitionDebounceExpiry (dt : Time)
  /-- LOAD_FADE_EXPIRY: the 100 ms load fade timer expires (R98). -/
  | loadFadeExpiry (dt : Time)
  /-- COOL_OFF_EXPIRY: a load's cool-off timer expires (R109). -/
  | coolOffExpiry (dt : Time) (l : Fin 32)
  /-- REFRESH_EXPIRY: a pod's refresh timer expires (R103). -/
  | refreshExpiry (dt : Time) (pod : Fin 12)
  /-- REPORT_TIMER_EXPIRY: a pod's report timer expires (R104). -/
  | reportTimerExpiry (dt : Time) (pod : Fin 12)
  /-- FLASHER_TICK: the flasher's 10 ms tick timer expires (R115). -/
  | flasherTick (dt : Time)
  /-- CONVERSION: the 20 ms conversion timer expires; the codes of the four local inputs (R127, R128). -/
  | conversion (dt : Time) (c0 c1 c2 c3 : BitVec 10)
  /-- STALE_EXPIRY: a descriptor's stale timer expires (R136). -/
  | staleExpiry (dt : Time) (d : Fin 16)
  /-- COIL_PULSE: a pulse on the coil-pulse input (R139). -/
  | coilPulse (dt : Time)
  /-- GATE_EXPIRY: the 500 ms gate timer expires (R140). -/
  | gateExpiry (dt : Time)
  /-- GAUGE_UPDATE: the 100 ms update timer expires (R143, R147). -/
  | gaugeUpdate (dt : Time)
  /-- IDENTIFY, taken from port `p` (R161). -/
  | identify (dt : Time) (p : PortId)
  /-- READ_TABLE, taken from port `p` (R162). -/
  | readTable (dt : Time) (p : PortId)
  /-- WRITE_TABLE, taken from port `p` (R166). -/
  | writeTable (dt : Time) (p : PortId)
  /-- READ_STATE, taken from port `p` (R163). -/
  | readState (dt : Time) (p : PortId)
  /-- READ_COUNTERS, taken from port `p` (R165). -/
  | readCounters (dt : Time) (p : PortId)
  /-- CLEAR_LATCH, taken from port `p` (R167). -/
  | clearLatch (dt : Time) (p : PortId)
  /-- STORE, taken from port `p` (R169). -/
  | store (dt : Time) (p : PortId)
  /-- LOAD_LIMP, taken from port `p` (R168). -/
  | loadLimp (dt : Time) (p : PortId)
  /-- RESTART, taken from port `p` (R171). -/
  | restart (dt : Time) (p : PortId)
  /-- BAD_REQUEST: a service request whose code or length is not allowed, taken from port `p` (R159). -/
  | badRequest (dt : Time) (p : PortId)
  /-- STORE_COMPLETE: NV programming and verify end; `verified`: every word verified (R170). -/
  | storeComplete (dt : Time) (verified : Bool)
  /-- BYTE_RECEIVED: a byte begins or ends on a port's wire (R16). -/
  | byteReceived (dt : Time) (p : PortId) (edge : ByteEdge)
  /-- SENT_BYTE_READ_BACK_EQUAL: a sent byte other than the last reads back equal (R16). -/
  | sentByteReadBackEqual (dt : Time) (p : PortId)
  /-- FEED_FELL_BELOW_2_5_V: during a hold the feed falls below 2.5 V (R173). -/
  | feedFellBelow2V5 (dt : Time)
  /-- BITS_DISTURBED_IN_STORAGE: the word (area, index) comes to hold `data` with a parity bit that does not agree (R10, log 12). -/
  | bitsDisturbedInStorage (dt : Time) (area : Area) (index : Nat) (data : Word16)
deriving DecidableEq, Repr

/-- The microseconds a command's moment lies after that of the command before it (log 2). -/
def Instr.elapsed : Instr → Time
  | .powerOn dt _ => dt
  | .brownOut dt => dt
  | .lowSupplyHold dt => dt
  | .frameEnd dt _ => dt
  | .skipEnd dt _ => dt
  | .transmitStart dt _ => dt
  | .frameSent dt _ => dt
  | .collision dt _ => dt
  | .transitCopy dt _ => dt
  | .routeWalk dt _ => dt
  | .actionTake dt => dt
  | .chainResume dt => dt
  | .waitExpiry dt _ => dt
  | .watchExpiry dt _ => dt
  | .ignitionInputChange dt _ => dt
  | .ignitionDebounceExpiry dt => dt
  | .loadFadeExpiry dt => dt
  | .coolOffExpiry dt _ => dt
  | .refreshExpiry dt _ => dt
  | .reportTimerExpiry dt _ => dt
  | .flasherTick dt => dt
  | .conversion dt _ _ _ _ => dt
  | .staleExpiry dt _ => dt
  | .coilPulse dt => dt
  | .gateExpiry dt => dt
  | .gaugeUpdate dt => dt
  | .identify dt _ => dt
  | .readTable dt _ => dt
  | .writeTable dt _ => dt
  | .readState dt _ => dt
  | .readCounters dt _ => dt
  | .clearLatch dt _ => dt
  | .store dt _ => dt
  | .loadLimp dt _ => dt
  | .restart dt _ => dt
  | .badRequest dt _ => dt
  | .storeComplete dt _ => dt
  | .byteReceived dt _ _ => dt
  | .sentByteReadBackEqual dt _ => dt
  | .feedFellBelow2V5 dt => dt
  | .bitsDisturbedInStorage dt _ _ _ => dt

end Sys2Proof
end

