-- ==== Sys2Proof/Machine/Layout.lean ====
section
/-! DEFINITION. The areas of the table store and the flat address of each word (R1), and the parameters with their indexes,
ranges and limp values (R6, R7, R183). -/

namespace Sys2Proof

/-- Words of an area (R1). -/
def Area.words : Area → Nat
  | .directory => 128
  | .route => 256
  | .event => 64
  | .action => 512
  | .load => 128
  | .pod => 32
  | .descriptor => 64
  | .gauge => 32
  | .curve => 128
  | .parameters => 64

/-- Address of an area's index 0: the areas follow one another in the order of R1, the order of the NV image (R13). -/
def Area.base : Area → Nat
  | .directory => 0
  | .route => 128
  | .event => 384
  | .action => 448
  | .load => 960
  | .pod => 1088
  | .descriptor => 1120
  | .gauge => 1184
  | .curve => 1216
  | .parameters => 1344

/-- The area byte of a service request (R182). -/
def Area.ofByte (b : Byte) : Option Area :=
  [Area.directory, .route, .event, .action, .load, .pod, .descriptor, .gauge, .curve, .parameters][b.toNat]?

namespace Machine

/-- Words of the table store (R1). -/
abbrev tableWords : Nat := 1408

/-- Words of the NV image: the table words and the check word (R13). -/
abbrev nvWords : Nat := 1409

/-- Address of word (area, index). -/
def address (a : Area) (index : Nat) : Nat := a.base + index

/-- A value read as the nearest value of its range (R7). -/
def clampTo (lo hi n : Nat) : Nat := max lo (min hi n)

/-- The parameters of R6. -/
inductive Param where
  | group1
  | group2
  | transitFrontRear
  | transitRearFront
  | refreshPeriod
  | provingDelay
  | litLength
  | darkLength
  | coolOff
  | retryLimit
  | gaugeReference
  | fanReference
  | fanRampStep
  | shedCap
  | cylinders
deriving DecidableEq, Repr, Inhabited

/-- PARAMETERS index of each parameter (R183). -/
def Param.index : Param → Nat
  | .group1 => 0
  | .group2 => 1
  | .transitFrontRear => 2
  | .transitRearFront => 3
  | .refreshPeriod => 4
  | .provingDelay => 5
  | .litLength => 6
  | .darkLength => 7
  | .coolOff => 8
  | .retryLimit => 9
  | .gaugeReference => 10
  | .fanReference => 11
  | .fanRampStep => 12
  | .shedCap => 13
  | .cylinders => 14

/-- Limp value of each parameter, also its reading when its word fails parity (R6, R12); a transit flag is 0 for off. -/
def Param.limp : Param → Nat
  | .group1 => 0
  | .group2 => 0
  | .transitFrontRear => 0
  | .transitRearFront => 0
  | .refreshPeriod => 1
  | .provingDelay => 15
  | .litLength => 33
  | .darkLength => 33
  | .coolOff => 20
  | .retryLimit => 3
  | .gaugeReference => 1000
  | .fanReference => 1200
  | .fanRampStep => 50
  | .shedCap => 2
  | .cylinders => 4

/-- The value a block uses for a stored parameter word (R6, R7, R183). -/
def Param.use : Param → Nat → Nat
  | .group1, n => min 62 n
  | .group2, n => min 62 n
  | .transitFrontRear, n => min 1 n
  | .transitRearFront, n => min 1 n
  | .refreshPeriod, n => clampTo 1 10 n
  | .provingDelay, n => clampTo 5 50 n
  | .litLength, n => clampTo 1 255 n
  | .darkLength, n => clampTo 1 255 n
  | .coolOff, n => clampTo 5 100 n
  | .retryLimit, n => min 7 n
  | .gaugeReference, n => clampTo 500 1600 n
  | .fanReference, n => clampTo 500 1600 n
  | .fanRampStep, n => clampTo 1 1000 n
  | .shedCap, n => min 7 n
  | .cylinders, n => if n = 6 ∨ n = 8 then n else 4

end Machine
end Sys2Proof
end

