-- ==== Sys2Proof/Machine/Entries.lean ====
section
/-! DEFINITION. The fields of a table entry as a block uses them (R2 to R5), after the placement and encodings of R183 and
R184 and the clamping of R7. -/

namespace Sys2Proof.Machine

/-- The two sides of the car; a side or request of NONE is `none` (R4, R83). -/
inductive Side where
  | left
  | right
deriving DecidableEq, Repr, Inhabited

/-- Home port of a source (R2). -/
inductive HomePort where
  | either
  | front
  | rear
deriving DecidableEq, Repr, Inhabited

/-- Action of a ROUTE entry (R2). -/
inductive RouteAction where
  | drop
  | switch
  | sender
  | report
  | forward
deriving DecidableEq, Repr, Inhabited

/-- Edge select of an EVENT entry (R3). -/
inductive EdgeSelect where
  | both
  | closing
  | opening
deriving DecidableEq, Repr, Inhabited

/-- Policy of an EVENT entry (R3). -/
inductive Policy where
  | queue
  | restart
deriving DecidableEq, Repr, Inhabited

/-- Change of a SET-MODE (R82). -/
inductive ModeChange where
  | set
  | clear
  | toggle
deriving DecidableEq, Repr, Inhabited

/-- Change of a FAN (R85). -/
inductive FanChange where
  | set
  | up
  | down
deriving DecidableEq, Repr, Inhabited

/-- Kind of a load (R4). -/
inductive LoadKind where
  | plain
  | indicator
  | stop
  | stopTurn
  | repeater
deriving DecidableEq, Repr, Inhabited

/-- Parked policy of a load (R4). -/
inductive ParkedPolicy where
  | keep
  | drop
deriving DecidableEq, Repr, Inhabited

/-- Sense of a descriptor's threshold (R5). -/
inductive Sense where
  | above
  | below
deriving DecidableEq, Repr, Inhabited

/-- Kind of a gauge (R5). -/
inductive GaugeKind where
  | off
  | thermal
  | coil
deriving DecidableEq, Repr, Inhabited

/-- Where a gauge takes its reading (R5). -/
inductive GaugeSource where
  | descriptor (d : Fin 16)
  | tach
deriving DecidableEq, Repr, Inhabited

/-- A DIRECTORY slot (R2). -/
structure DirectoryEntry where
  head : Option (Fin 128)
  home : HomePort
  watch : Nat
  silence : Option (Fin 32)
deriving DecidableEq, Repr, Inhabited

/-- A ROUTE entry (R2); the count is as stored, since its range depends on the action. -/
structure RouteEntry where
  kind : Fin 16
  action : RouteAction
  alsoForward : Bool
  base : Nat
  count : Nat
  rewrite : Fin 64
  link : Int
deriving DecidableEq, Repr, Inhabited

/-- An EVENT entry (R3). -/
structure EventEntry where
  enable : Bool
  select : EdgeSelect
  policy : Policy
  initialMask : Bool
  closingHead : Option (Fin 256)
  openingHead : Option (Fin 256)
deriving DecidableEq, Repr, Inhabited

/-- The operation of an ACTION entry with its operands (R3, R183); codes 8 to 15 name none of the eight (R184). -/
inductive ActionOp where
  | setMode (mode : Fin 16) (change : ModeChange)
  | setLoad (load : Fin 32) (level : Fin 16) (ramp : Bool)
  | indicate (request : Option Side)
  | mask (channel : Fin 32) (set : Bool)
  | fan (change : FanChange) (level : Fin 8)
  | wait (time : Nat)
  | testMode (mode : Fin 16) (set : Bool) (offset : Int)
  | testLevel (channel : Fin 32) (closed : Bool) (offset : Int)
  | unnamed
deriving DecidableEq, Repr, Inhabited

/-- An ACTION entry (R3). -/
structure ActionEntry where
  op : ActionOp
  link : Int
deriving DecidableEq, Repr, Inhabited

/-- A LOAD entry (R4). -/
structure LoadEntry where
  pod : Option (Fin 12)
  output : Fin 8
  kind : LoadKind
  side : Option Side
  policy : ParkedPolicy
  bulbs : Nat
  current : Nat
deriving DecidableEq, Repr, Inhabited

/-- A POD entry (R4). -/
structure PodEntry where
  address : Fin 64
  port : PortId
deriving DecidableEq, Repr, Inhabited

/-- A DESCRIPTOR entry (R5). -/
structure DescriptorEntry where
  window : Nat
  threshold : Nat
  hysteresis : Nat
  sense : Sense
  channel : Option (Fin 32)
  stale : Nat
deriving DecidableEq, Repr, Inhabited

/-- A GAUGE entry G0 to G3 (R5). -/
structure GaugeEntry where
  kind : GaugeKind
  source : GaugeSource
  curve : Fin 8
  slew : Nat
deriving DecidableEq, Repr, Inhabited

/-- The fan entry and the fan level table, read together (R5, R154); `fractions` holds levels 1 to 7. -/
structure FanEntry where
  on : Bool
  fractions : List Nat
deriving DecidableEq, Repr, Inhabited

/-- A curve as used: its points, as many as its point count (R145). -/
structure Curve where
  points : List (Nat × Nat)
deriving DecidableEq, Repr, Inhabited

end Sys2Proof.Machine
end

