-- ==== Sys2Proof/Machine/Limp.lean ====
section
/-! DEFINITION. The two limp variants (R174 to R180): the entries they fill, and the empty entry of each area everywhere else
(R13), each entry written into its words by the placement of R183 and the encodings of R184. -/

namespace Sys2Proof.Machine.Limp

/-- The `len` low bits of an integer, as they stand in a two's complement field. -/
def twos (len : Nat) (i : Int) : Nat := (i % (2 ^ len : Int)).toNat

/-- A word from its fields, each with its lowest bit. -/
def pack (fields : List (Nat × Nat)) : Word16 := BitVec.ofNat 16 (fields.foldl (fun n f => n + f.1 <<< f.2) 0)

/-- The code of a side or of an INDICATE request (R184). -/
def sideCode : Option Side → Nat
  | none => 0
  | some .left => 1
  | some .right => 2

/-- The code of a load kind (R184). -/
def kindCode : LoadKind → Nat
  | .plain => 0
  | .indicator => 1
  | .stop => 2
  | .stopTurn => 3
  | .repeater => 4

/-- The words of a DIRECTORY slot. -/
def directoryWords (head home watch silence : Nat) : List Word16 := [pack [(head, 0), (home, 8)], pack [(watch, 0), (silence, 8)]]

/-- R175, DIRECTORY: home port 1 is FRONT and 2 is REAR; every slot not listed is empty. -/
def directoryEntry (e : Nat) : List Word16 :=
  match e with
  | 8 => directoryWords 0 1 6 24
  | 9 => directoryWords 1 1 0 63
  | 16 => directoryWords 2 1 0 63
  | 17 => directoryWords 2 1 0 63
  | 24 => directoryWords 2 2 0 63
  | 25 => directoryWords 2 2 0 63
  | 32 => directoryWords 3 2 0 63
  | _ => directoryWords 255 0 0 63

/-- The words of a ROUTE entry with also-forward off, rewrite destination 0 and link 0. -/
def routeWords (kind action base count : Nat) : List Word16 := [pack [(kind, 12), (count, 6)], pack [(action, 12), (base, 6)]]

/-- R175, ROUTE: actions 1 SWITCH, 2 SENDER, 3 REPORT. -/
def routeEntry (e : Nat) : List Word16 :=
  match e with
  | 0 => routeWords 0 1 0 5
  | 1 => routeWords 0 1 8 8
  | 2 => routeWords 3 3 0 1
  | 3 => routeWords 1 2 4 1
  | _ => routeWords 0 0 0 1

/-- The words of an enabled EVENT entry with initial mask off. -/
def eventWords (select policy closing opening : Nat) : List Word16 :=
  [pack [(1, 15), (select, 13), (policy, 12), (closing, 0)], pack [(opening, 0)]]

/-- R176, EVENT: select 0 BOTH, 1 CLOSING; policy 0 QUEUE, 1 RESTART; head 511 NONE. -/
def eventEntry (e : Nat) : List Word16 :=
  match e with
  | 0 => eventWords 0 0 0 1
  | 1 => eventWords 0 0 4 5
  | 2 => eventWords 0 0 18 8
  | 3 => eventWords 1 0 21 511
  | 4 => eventWords 0 0 22 23
  | 8 => eventWords 0 0 24 30
  | 9 => eventWords 0 0 36 37
  | 10 => eventWords 0 0 38 40
  | 11 => eventWords 1 0 42 511
  | 12 => eventWords 1 0 43 511
  | 13 => eventWords 0 0 44 45
  | 14 => eventWords 0 0 46 47
  | 15 => eventWords 1 1 48 511
  | 20 => eventWords 0 0 52 53
  | 21 => eventWords 0 0 54 55
  | 22 => eventWords 0 0 56 58
  | 24 => eventWords 1 0 60 511
  | 31 => eventWords 0 0 62 63
  | _ => [pack [(511, 0)], pack [(511, 0)]]

/-- The words of an ACTION entry. -/
def actionWords (op : ActionOp) (link : Int) : List Word16 :=
  let w1 (offset : Int) : Word16 := pack [(twos 8 link, 0), (twos 6 offset, 8)]
  match op with
  | .setMode m c => [pack [(m.val, 0), ((match c with | .set => 0 | .clear => 1 | .toggle => 2), 5)], w1 0]
  | .setLoad l v r => [pack [(1, 12), (l.val, 0), (v.val, 6), (r.toNat, 11)], w1 0]
  | .indicate r => [pack [(2, 12), (sideCode r, 0)], w1 0]
  | .mask c m => [pack [(3, 12), (c.val, 0), (m.toNat, 6)], w1 0]
  | .fan c n => [pack [(4, 12), ((match c with | .set => 0 | .up => 1 | .down => 2), 0), (n.val, 2)], w1 0]
  | .wait t => [pack [(5, 12), (t, 0)], w1 0]
  | .testMode m s o => [pack [(6, 12), (m.val, 0), (s.toNat, 5)], w1 o]
  | .testLevel c s o => [pack [(7, 12), (c.val, 0), (s.toNat, 6)], w1 o]
  | .unnamed => [pack [(8, 12)], w1 0]

/-- R177 and R178: the operation at an ACTION index and the index its link leads to; its own index stands for "end". -/
def chain (e : Nat) : Option (ActionOp × Nat) :=
  match e with
  | 0 => some (.indicate (some .left), 0)
  | 1 => some (.testLevel 1 true (3 - 1), 2)
  | 2 => some (.indicate none, 2)
  | 3 => some (.indicate (some .right), 3)
  | 4 => some (.indicate (some .right), 4)
  | 5 => some (.testLevel 0 true (0 - 5), 2)
  | 8 => some (.testMode 5 false (11 - 8), 9)
  | 9 => some (.testMode 6 true (14 - 9), 10)
  | 10 => some (.setLoad 3 15 false, 12)
  | 11 => some (.setLoad 3 0 false, 12)
  | 12 => some (.setLoad 4 0 false, 13)
  | 13 => some (.setLoad 13 0 false, 13)
  | 14 => some (.setLoad 3 0 false, 15)
  | 15 => some (.setLoad 4 15 false, 16)
  | 16 => some (.setLoad 13 15 false, 16)
  | 18 => some (.setLoad 4 15 false, 19)
  | 19 => some (.setLoad 13 15 false, 19)
  | 21 => some (.setMode 6 .toggle, 8)
  | 22 => some (.setLoad 5 15 false, 22)
  | 23 => some (.setLoad 5 0 false, 23)
  | 24 => some (.setMode 4 .set, 25)
  | 25 => some (.setLoad 0 15 false, 26)
  | 26 => some (.setLoad 1 15 false, 27)
  | 27 => some (.setLoad 2 15 false, 28)
  | 28 => some (.setLoad 20 15 false, 29)
  | 29 => some (.setLoad 6 15 false, 29)
  | 30 => some (.setMode 4 .clear, 31)
  | 31 => some (.setLoad 0 0 false, 32)
  | 32 => some (.setLoad 1 0 false, 33)
  | 33 => some (.setLoad 2 0 false, 34)
  | 34 => some (.setLoad 20 0 false, 35)
  | 35 => some (.setLoad 6 0 false, 35)
  | 36 => some (.setMode 5 .set, 8)
  | 37 => some (.setMode 5 .clear, 8)
  | 38 => some (.setMode 1 .set, 39)
  | 39 => some (.setLoad 19 15 false, 39)
  | 40 => some (.setMode 1 .clear, 41)
  | 41 => some (.setLoad 19 0 false, 41)
  | 42 => some (.fan .up 0, 42)
  | 43 => some (.fan .down 0, 43)
  | 44 => some (.setLoad 12 15 false, 44)
  | 45 => some (.setLoad 12 0 true, 45)
  | 46 => some (.setMode 2 .set, 46)
  | 47 => some (.setMode 2 .clear, 47)
  | 48 => some (.setLoad 12 15 false, 49)
  | 49 => some (.wait 150, 50)
  | 50 => some (.testLevel 13 true 0, 51)
  | 51 => some (.setLoad 12 0 true, 51)
  | 52 => some (.setLoad 14 15 false, 52)
  | 53 => some (.setLoad 14 0 false, 53)
  | 54 => some (.setLoad 15 15 false, 54)
  | 55 => some (.setLoad 15 0 false, 55)
  | 56 => some (.setMode 3 .set, 57)
  | 57 => some (.setLoad 18 15 false, 57)
  | 58 => some (.setMode 3 .clear, 59)
  | 59 => some (.setLoad 18 0 false, 59)
  | 60 => some (.indicate none, 61)
  | 61 => some (.setLoad 5 0 false, 8)
  | 62 => some (.setMode 0 .set, 62)
  | 63 => some (.setMode 0 .clear, 63)
  | _ => none

/-- The words of ACTION entry `e`; the empty entry is SET-MODE of M15 with CLEAR and link 0 (R13). -/
def actionEntry (e : Nat) : List Word16 :=
  match chain e with
  | some (op, next) => actionWords op ((next : Int) - (e : Int))
  | none => actionWords (.setMode 15 .clear) 0

/-- The words of a LOAD entry; DROP is policy bit 1. -/
def loadWords (pod output : Nat) (kind : LoadKind) (side : Option Side) (bulbs current : Nat) (drop : Bool) : List Word16 :=
  [pack [(pod, 0), (output, 4), (kindCode kind, 7), (sideCode side, 10), (drop.toNat, 12)], pack [(current, 0), (bulbs, 8)], 0#16, 0#16]

/-- The empty LOAD entry (R13): pod NONE and "the first value listed in R4" for the side, LEFT (log 26). -/
def emptyLoad : List Word16 := loadWords 15 0 .plain (some .left) 1 1 false

/-- R179, the LOAD entries that are the same in both variants. -/
def commonLoad (e : Nat) : List Word16 :=
  match e with
  | 0 => loadWords 0 0 .plain none 2 10 false
  | 1 => loadWords 2 0 .plain none 1 10 false
  | 2 => loadWords 3 0 .plain none 1 10 false
  | 3 => loadWords 0 1 .plain none 2 83 true
  | 4 => loadWords 0 2 .plain none 2 100 true
  | 5 => loadWords 0 3 .plain none 1 80 true
  | 6 => loadWords 1 0 .plain none 2 4 false
  | 7 => loadWords 1 1 .repeater none 1 4 false
  | 8 => loadWords 0 4 .indicator (some .left) 1 35 false
  | 9 => loadWords 0 5 .indicator (some .right) 1 35 false
  | 12 => loadWords 1 2 .plain none 1 8 false
  | 13 => loadWords 1 3 .plain none 1 4 true
  | 14 => loadWords 1 4 .plain none 1 4 true
  | 15 => loadWords 1 5 .plain none 1 4 true
  | 18 => loadWords 1 6 .plain none 1 4 true
  | 19 => loadWords 1 7 .plain none 1 4 false
  | 20 => loadWords 3 3 .plain none 1 10 false
  | _ => emptyLoad

/-- R179, the LOAD entries of each variant. -/
def loadEntry (v : LimpVariant) (e : Nat) : List Word16 :=
  match v, e with
  | .separate, 10 => loadWords 2 1 .indicator (some .left) 1 35 false
  | .separate, 11 => loadWords 3 1 .indicator (some .right) 1 35 false
  | .separate, 16 => loadWords 2 2 .stop none 1 35 true
  | .separate, 17 => loadWords 3 2 .stop none 1 35 true
  | .combined, 10 => loadWords 2 1 .stop none 1 35 true
  | .combined, 11 => emptyLoad
  | .combined, 16 => loadWords 2 2 .stopTurn (some .left) 1 35 false
  | .combined, 17 => loadWords 3 2 .stopTurn (some .right) 1 35 false
  | _, _ => commonLoad e

/-- R175, POD: address, and port bit 1 for REAR; the option words hold 0. -/
def podEntry (e : Nat) : List Word16 :=
  match e with
  | 0 => [pack [(16, 0)], 0#16]
  | 1 => [pack [(17, 0)], 0#16]
  | 2 => [pack [(24, 0), (1, 8)], 0#16]
  | 3 => [pack [(25, 0), (1, 8)], 0#16]
  | _ => [0#16, 0#16]

/-- The words of a DESCRIPTOR entry; BELOW is sense bit 1. -/
def descriptorWords (window threshold hysteresis : Nat) (below : Bool) (channel stale : Nat) : List Word16 :=
  [pack [(threshold, 0), (below.toNat, 15)], pack [(hysteresis, 0), (window, 8)], pack [(channel, 0), (stale, 8)], 0#16]

/-- R180, DESCRIPTOR; channel 63 is NONE. -/
def descriptorEntry (e : Nat) : List Word16 :=
  match e with
  | 0 => descriptorWords 5 590 10 true 22 2
  | 1 => descriptorWords 10 860 40 false 21 2
  | 2 => descriptorWords 10 0 0 false 63 2
  | 4 => descriptorWords 4 120 15 true 20 6
  | _ => descriptorWords 1 0 0 false 63 0

/-- The words of a GAUGE entry; kind 1 THERMAL, 2 COIL; source 31 TACH. -/
def gaugeWords (kind source curve slew : Nat) : List Word16 := [pack [(kind, 0), (source, 4), (curve, 12)], pack [(slew, 0)], 0#16, 0#16]

/-- R180, GAUGE: the four gauges, the fan entry (drive ON), the level table and the option words, by groups of four words. -/
def gaugeEntry (e : Nat) : List Word16 :=
  match e with
  | 0 => gaugeWords 1 4 0 10
  | 1 => gaugeWords 1 1 1 20
  | 2 => gaugeWords 1 2 2 50
  | 3 => gaugeWords 2 31 3 100
  | 4 => [1#16, 0#16, 0#16, 0#16]
  | 5 => [0#16, 250#16, 400#16, 600#16]
  | 6 => [700#16, 800#16, 900#16, 1000#16]
  | _ => [0#16, 0#16, 0#16, 0#16]

/-- The words of a curve: the point count beside x0, then the points. -/
def curveWords (points : List (Nat × Nat)) : List Word16 :=
  match points with
  | [] => []
  | (x, y) :: rest => pack [(x, 0), (points.length, 12)] :: pack [(y, 0)] :: rest.flatMap fun q => [pack [(q.1, 0)], pack [(q.2, 0)]]

/-- R180, CURVE; words after the points hold 0 (R13). -/
def curveEntry (e : Nat) : List Word16 :=
  match e with
  | 0 => curveWords [(60, 0), (500, 520), (980, 1000)]
  | 1 => curveWords [(120, 0), (480, 500), (900, 1000)]
  | 2 => curveWords [(50, 0), (950, 1000)]
  | 3 => curveWords [(0, 0), (750, 1000)]
  | _ => curveWords [(0, 0), (1023, 0)]

/-- R174, PARAMETERS: the limp values of R6, and 0 where no parameter stands. -/
def parameterWord (i : Nat) : Word16 :=
  match [Param.group1, .group2, .transitFrontRear, .transitRearFront, .refreshPeriod, .provingDelay, .litLength, .darkLength, .coolOff,
    .retryLimit, .gaugeReference, .fanReference, .fanRampStep, .shedCap, .cylinders][i]? with
  | some p => BitVec.ofNat 16 p.limp
  | none => 0#16

/-- Word `k` of entry `k / size` of an area. -/
def ofEntries (size : Nat) (entry : Nat → List Word16) (i : Nat) : Word16 := (entry (i / size)).getD (i % size) 0#16

/-- The word of a limp variant at an address of the store, in the order of the areas (R1, R13). -/
def word (v : LimpVariant) (a : Nat) : Word16 :=
  if a < 128 then ofEntries 2 directoryEntry a
  else if a < 384 then ofEntries 2 routeEntry (a - 128)
  else if a < 448 then ofEntries 2 eventEntry (a - 384)
  else if a < 960 then ofEntries 2 actionEntry (a - 448)
  else if a < 1088 then ofEntries 4 (loadEntry v) (a - 960)
  else if a < 1120 then ofEntries 2 podEntry (a - 1088)
  else if a < 1184 then ofEntries 4 descriptorEntry (a - 1120)
  else if a < 1216 then ofEntries 4 gaugeEntry (a - 1184)
  else if a < 1344 then ofEntries 16 curveEntry (a - 1216)
  else parameterWord (a - 1344)

end Sys2Proof.Machine.Limp
end

