-- ==== Sys2Proof/Machine/Memory.lean ====
section
/-! DEFINITION. An addressed memory as a list of (address, contents) in one canonical form: addresses strictly rising, and no
entry equal to what an unlisted address reads as (log 11). The table store and the NV image are two of these. -/

namespace Sys2Proof.Machine.Memory

variable {α : Type} [DecidableEq α]

/-- What an address reads as. -/
def read (unlisted : Nat → α) : List (Nat × α) → Nat → α
  | [], a => unlisted a
  | (b, v) :: m, a => if a = b then v else read unlisted m a

/-- The memory with one address rewritten. -/
def write (unlisted : Nat → α) : List (Nat × α) → Nat → α → List (Nat × α)
  | [], a, v => if v = unlisted a then [] else [(a, v)]
  | (b, w) :: m, a, v =>
    if a < b then (if v = unlisted a then (b, w) :: m else (a, v) :: (b, w) :: m)
    else if a = b then (if v = unlisted a then m else (a, v) :: m)
    else (b, w) :: write unlisted m a v

/-- The memory of `size` addresses in which address `a` holds `f a`. -/
def ofFn (unlisted : Nat → α) (size : Nat) (f : Nat → α) : List (Nat × α) :=
  (List.range size).filterMap fun a => if f a = unlisted a then none else some (a, f a)

/-- The canonical form, every address below `size`. -/
def wf (unlisted : Nat → α) (size : Nat) : List (Nat × α) → Bool
  | [] => true
  | (a, v) :: m => decide (a < size) && decide (v ≠ unlisted a) && m.all (fun c => decide (a < c.1)) && wf unlisted size m

end Sys2Proof.Machine.Memory
end

