-- ==== Sys2Proof/Machine/Operands.lean ====
section
/-! DEFINITION. Reading a field: where it stands in its entry's words (R183), what its encodings mean (R184), and how a value
outside its range is read (R7). -/

namespace Sys2Proof.Machine

/-- The unsigned field of `len` bits from bit `lo` of a word. -/
def field (w : Word16) (lo len : Nat) : Nat := (w.toNat >>> lo) % 2 ^ len

/-- The two's complement field of `len` bits from bit `lo` of a word. -/
def signedField (w : Word16) (lo len : Nat) : Int :=
  if field w lo len < 2 ^ (len - 1) then (field w lo len : Int) else (field w lo len : Int) - 2 ^ len

/-- An index field: a value above the last entry is read as the last entry (R7). -/
def indexOf (n : Nat) [NeZero n] (v : Nat) : Fin n := Fin.ofNat n (min (n - 1) v)

/-- An index field that may hold NONE as the encoding `none` (R184). -/
def indexOrNone (n : Nat) [NeZero n] (noneCode v : Nat) : Option (Fin n) :=
  if v = noneCode then none else some (indexOf n v)

/-- Word `k` of an entry's words. -/
def wordAt (ws : List Word16) (k : Nat) : Word16 := ws.getD k 0#16

/-- Home port encodings (R184). -/
def homePortOf (n : Nat) : HomePort := if n = 1 then .front else if n = 2 then .rear else .either

/-- Route action encodings (R184). -/
def routeActionOf (n : Nat) : RouteAction :=
  match n with
  | 1 => .switch
  | 2 => .sender
  | 3 => .report
  | 4 => .forward
  | _ => .drop

/-- Edge select encodings (R184). -/
def edgeSelectOf (n : Nat) : EdgeSelect := if n = 1 then .closing else if n = 2 then .opening else .both

/-- Load kind encodings (R184). -/
def loadKindOf (n : Nat) : LoadKind :=
  match n with
  | 1 => .indicator
  | 2 => .stop
  | 3 => .stopTurn
  | 4 => .repeater
  | _ => .plain

/-- Side and INDICATE encodings: 1 LEFT, 2 RIGHT, any other NONE (R184). -/
def sideOf (n : Nat) : Option Side := if n = 1 then some .left else if n = 2 then some .right else none

/-- SET-MODE change encodings (R184). -/
def modeChangeOf (n : Nat) : ModeChange := if n = 0 then .set else if n = 2 then .toggle else .clear

/-- FAN change encodings (R184). -/
def fanChangeOf (n : Nat) : FanChange := if n = 1 then .up else if n = 2 then .down else .set

/-- Gauge kind encodings (R184). -/
def gaugeKindOf (n : Nat) : GaugeKind := if n = 1 then .thermal else if n = 2 then .coil else .off

/-- Port encodings of a POD entry (R184). -/
def podPortOf (rear : Bool) : PortId := if rear then .rear else .front

/-- A DIRECTORY slot from its two words. -/
def directoryOf (ws : List Word16) : DirectoryEntry where
  head := indexOrNone 128 255 (field (wordAt ws 0) 0 8)
  home := homePortOf (field (wordAt ws 0) 8 2)
  watch := field (wordAt ws 1) 0 4
  silence := indexOrNone 32 63 (field (wordAt ws 1) 8 6)

/-- A ROUTE entry from its two words. -/
def routeOf (ws : List Word16) : RouteEntry where
  kind := indexOf 16 (field (wordAt ws 0) 12 4)
  count := field (wordAt ws 0) 6 6
  rewrite := indexOf 64 (field (wordAt ws 0) 0 6)
  action := routeActionOf (field (wordAt ws 1) 12 3)
  alsoForward := (wordAt ws 1).getLsbD 11
  base := field (wordAt ws 1) 6 5
  link := signedField (wordAt ws 1) 0 6

/-- The count of a SWITCH entry (R7). -/
def RouteEntry.switchCount (e : RouteEntry) : Nat := clampTo 1 32 e.count

/-- The count of a SENDER entry (R7). -/
def RouteEntry.senderCount (e : RouteEntry) : Nat := clampTo 1 4 e.count

/-- An EVENT entry from its two words. -/
def eventOf (ws : List Word16) : EventEntry where
  enable := (wordAt ws 0).getLsbD 15
  select := edgeSelectOf (field (wordAt ws 0) 13 2)
  policy := if (wordAt ws 0).getLsbD 12 then .restart else .queue
  initialMask := (wordAt ws 0).getLsbD 11
  closingHead := indexOrNone 256 511 (field (wordAt ws 0) 0 9)
  openingHead := indexOrNone 256 511 (field (wordAt ws 1) 0 9)

/-- The operation of an ACTION entry from its two words. -/
def actionOpOf (w0 w1 : Word16) : ActionOp :=
  match field w0 12 4 with
  | 0 => .setMode (indexOf 16 (field w0 0 5)) (modeChangeOf (field w0 5 2))
  | 1 => .setLoad (indexOf 32 (field w0 0 6)) (indexOf 16 (field w0 6 5)) (w0.getLsbD 11)
  | 2 => .indicate (sideOf (field w0 0 2))
  | 3 => .mask (indexOf 32 (field w0 0 6)) (w0.getLsbD 6)
  | 4 => .fan (fanChangeOf (field w0 0 2)) (indexOf 8 (field w0 2 4))
  | 5 => .wait (max 1 (field w0 0 8))
  | 6 => .testMode (indexOf 16 (field w0 0 5)) (w0.getLsbD 5) (signedField w1 8 6)
  | 7 => .testLevel (indexOf 32 (field w0 0 6)) (w0.getLsbD 6) (signedField w1 8 6)
  | _ => .unnamed

/-- An ACTION entry from its two words. -/
def actionOf (ws : List Word16) : ActionEntry where
  op := actionOpOf (wordAt ws 0) (wordAt ws 1)
  link := signedField (wordAt ws 1) 0 8

/-- A LOAD entry from its four words. -/
def loadOf (ws : List Word16) : LoadEntry where
  pod := indexOrNone 12 15 (field (wordAt ws 0) 0 4)
  output := indexOf 8 (field (wordAt ws 0) 4 3)
  kind := loadKindOf (field (wordAt ws 0) 7 3)
  side := sideOf (field (wordAt ws 0) 10 2)
  policy := if (wordAt ws 0).getLsbD 12 then .drop else .keep
  current := clampTo 1 255 (field (wordAt ws 1) 0 8)
  bulbs := clampTo 1 4 (field (wordAt ws 1) 8 3)

/-- A POD entry from its two words. -/
def podOf (ws : List Word16) : PodEntry where
  address := indexOf 64 (field (wordAt ws 0) 0 6)
  port := podPortOf ((wordAt ws 0).getLsbD 8)

/-- A DESCRIPTOR entry from its four words. -/
def descriptorOf (ws : List Word16) : DescriptorEntry where
  threshold := field (wordAt ws 0) 0 10
  sense := if (wordAt ws 0).getLsbD 15 then .below else .above
  hysteresis := field (wordAt ws 1) 0 8
  window := clampTo 1 16 (field (wordAt ws 1) 8 5)
  channel := indexOrNone 32 63 (field (wordAt ws 2) 0 6)
  stale := field (wordAt ws 2) 8 4

/-- A gauge's source field: 31 is TACH, any other value above 15 is descriptor 15 (R144, R184). -/
def gaugeSourceOf (n : Nat) : GaugeSource := if n = 31 then .tach else .descriptor (indexOf 16 n)

/-- A GAUGE entry G0 to G3 from its four words. -/
def gaugeOf (ws : List Word16) : GaugeEntry where
  kind := gaugeKindOf (field (wordAt ws 0) 0 2)
  source := gaugeSourceOf (field (wordAt ws 0) 4 5)
  curve := indexOf 8 (field (wordAt ws 0) 12 3)
  slew := clampTo 1 1000 (wordAt ws 1).toNat

/-- The fan entry and level table from GAUGE indexes 16 to 27: the word of level n is GAUGE index 20 + n, the word 4 + n of this
read (R1, R153). -/
def fanOf (ws : List Word16) : FanEntry where
  on := (wordAt ws 0).getLsbD 0
  fractions := [5, 6, 7, 8, 9, 10, 11].map fun k => min 1000 (wordAt ws k).toNat

/-- The table fraction of a level: level 0 is always 0 (R153). -/
def FanEntry.fraction (e : FanEntry) (level : Nat) : Nat := if level = 0 then 0 else e.fractions.getD (level - 1) 0

/-- Point `p` of a curve from its sixteen words (R145). -/
def curvePointOf (ws : List Word16) (p : Nat) : Nat × Nat :=
  (min 1023 (field (wordAt ws (2 * p)) 0 12), min 1000 (wordAt ws (2 * p + 1)).toNat)

/-- A curve from its sixteen words: the points used (R145). -/
def curveOf (ws : List Word16) : Curve where
  points := (List.range (clampTo 2 8 (field (wordAt ws 0) 12 4))).map (curvePointOf ws)

end Sys2Proof.Machine
end

