-- ==== Sys2Proof/Machine/State.lean ====
section
/-! DEFINITION. The state of the part, block by block, as the manual names it, and the state right after a power-on. A timer is
the moment it expires (`none` while stopped, log 2). -/

namespace Sys2Proof.Machine

/-- Why a step can stop with a fault. -/
inductive Fault where
  /-- Raised by BITS_DISTURBED_IN_STORAGE naming a word that does not exist (R1). Safe: the part has no such word, so no such
  event happens to it (log 25). -/
  | noSuchWord
deriving DecidableEq, Repr

/-- Why a step can refuse a command. -/
inductive Refusal where
  /-- A command whose arm has no meaning yet. Safe: nothing is claimed of it. No arm answers so. -/
  | notModelled (mnemonic : String)
deriving DecidableEq, Repr

/-- A level of a load or of a pod output, 0 to 15 (R92, R100). -/
abbrev Level := Fin 16

/-- A loom address (00_scope section 6.3). -/
abbrev LoomAddr := Fin 64

/-- The feed as the supply monitor sees it (R173). -/
inductive Power where
  /-- At or above 4.5 V, loading done: the blocks run. -/
  | running
  /-- In the low-supply hold, never below 2.5 V: the retained memory is kept. -/
  | held
  /-- Not powered yet, or in the hold after the feed fell below 2.5 V: the retained memory is no longer kept. -/
  | lost
  /-- In a hold that began before the loading of a power-on had completed, never below 2.5 V (log 6). -/
  | unloaded
deriving DecidableEq, Repr, Inhabited

/-- One word of the table store: its 17 stored bits and its fault mark (R1, R8, R10). -/
structure StoredWord where
  data : Word16
  parity : Bool
  mark : Bool
deriving DecidableEq, Repr, Inhabited

/-- The table store: its words (an unlisted address reads as `unlistedWord`, log 11), their source (R14) and the PARITY counter
(R10, R164). -/
structure TableStore where
  cells : List (Nat × StoredWord)
  source : TableSource
  parityCount : Counter
deriving DecidableEq, Repr, Inhabited

/-- A good frame, or one the hub has built; its length is its payload's and its check follows from the rest (R17, R18). -/
structure Frame where
  dest : LoomAddr
  src : LoomAddr
  kind : Fin 16
  payload : List Byte
deriving DecidableEq, Repr, Inhabited

/-- Class of a good frame (R21). -/
inductive FrameClass where
  | serviceRequest
  | transit
  | routed
deriving DecidableEq, Repr, Inhabited

/-- A frame in a receive pool with its class (R22); its arrival port is the port whose pool it is. -/
structure HeldFrame where
  frame : Frame
  cls : FrameClass
deriving DecidableEq, Repr, Inhabited

/-- A receive pool (R22). -/
inductive Pool where
  | free
  | held (h : HeldFrame)
  | serving (h : HeldFrame)
deriving DecidableEq, Repr, Inhabited

/-- Line state of a port (R16). -/
inductive LineState where
  | idle
  | receiving
  | transmitting
  | skipping
deriving DecidableEq, Repr, Inhabited

/-- The frame being received: its first 22 bytes in order, the count of all its bytes, and whether one had a byte fault
(R15, R19). -/
structure Reception where
  bytes : List Byte
  count : Nat
  byteFault : Bool
deriving DecidableEq, Repr, Inhabited

/-- An entry of a transmit queue (R25): its frame, its started mark, the pod record of a LAMPCMD the hub built, and whether it is
the reply a RESTART waits for (R171, log 21). -/
structure QueueEntry where
  frame : Frame
  started : Bool
  pod : Option (Fin 12)
  restartReply : Bool
deriving DecidableEq, Repr, Inhabited

/-- The eight counters of a port (R30). -/
structure PortCounters where
  rxGood : Counter
  rxFormat : Counter
  rxCheck : Counter
  rxOverflow : Counter
  txSent : Counter
  txCollide : Counter
  txDrop : Counter
  serviceDrop : Counter
deriving DecidableEq, Repr, Inhabited

/-- One loom port (chapter 2). -/
structure Port where
  line : LineState
  /-- The moment the quiet timer was last restarted (R15). -/
  quietFrom : Time
  /-- A byte not sent by the hub has begun on the wire and not ended (log 18). -/
  byteOnWire : Bool
  reception : Reception
  poolA : Pool
  poolB : Pool
  /-- With both pools occupied: the frame in pool B arrived before the one in pool A (R22). -/
  olderB : Bool
  queue : List QueueEntry
  /-- Bytes of the head frame sent and read back equal (R25). -/
  sentBytes : Nat
  /-- An entry of the queue has been freed and its refill is still to be made (R29, log 29). -/
  refillOwed : Bool
  counters : PortCounters
deriving DecidableEq, Repr, Inhabited

/-- Heard state of a source (R35). -/
inductive HeardState where
  | unheard
  | heard
  | silent
deriving DecidableEq, Repr, Inhabited

/-- Directory runtime of a source (R35). -/
structure SourceRecord where
  heard : HeardState
  watch : Option Time
deriving DecidableEq, Repr, Inhabited

/-- The route engine (R35, R53). -/
structure RouteEngine where
  sources : Vector SourceRecord 64
  routeMiss : Counter
  reportError : Counter
deriving DecidableEq, Repr, Inhabited

/-- Level of a channel (R54). -/
inductive ChannelLevel where
  | unknown
  | isOpen
  | isClosed
deriving DecidableEq, Repr, Inhabited

/-- An edge (R58). -/
inductive Edge where
  | closing
  | opening
deriving DecidableEq, Repr, Inhabited

/-- Runtime record of a channel (R54). -/
structure Channel where
  level : ChannelLevel
  pending : Option Edge
  masked : Bool
  inService : Bool
deriving DecidableEq, Repr, Inhabited

/-- The event block (chapter 4). -/
structure EventBlock where
  channels : Vector Channel 32
  /-- The raw ignition sense input (R57). -/
  rawIgnition : Bool
  /-- The debounced ignition level, `none` while unset (R57). -/
  debounced : Option Bool
  debounceTimer : Option Time
  edgeLost : Counter
  /-- The engine has chosen, found nothing, and nothing that calls for a choice has happened since (R72, log 20). -/
  choiceMade : Bool
deriving DecidableEq, Repr, Inhabited

/-- State of a chain slot (R71). -/
inductive SlotState where
  | free
  | suspended
  | due
deriving DecidableEq, Repr, Inhabited

/-- A chain slot (R71); `next` is `none` for END. -/
structure Slot where
  state : SlotState
  channel : Fin 32
  next : Option (Fin 256)
  timer : Option Time
deriving DecidableEq, Repr, Inhabited

/-- The action engine (R70). -/
structure ActionEngine where
  slots : Vector Slot 4
  modes : Vector Bool 16
  indicate : Option Side
  fanRequest : Fin 8
  chainFault : Counter
  slotFull : Counter
deriving DecidableEq, Repr, Inhabited

/-- Proof status of a load (R92). -/
inductive ProofStatus where
  | unknown
  | proven
  | degraded
  | isOpen
deriving DecidableEq, Repr, Inhabited

/-- Trip state of a load (R92). -/
inductive TripState where
  | normal
  | cooling
  | latched
deriving DecidableEq, Repr, Inhabited

/-- Runtime record of a load (R92). -/
structure LoadRecord where
  requested : Level
  ramp : Bool
  current : Level
  effective : Level
  demand : Bool
  binding : Option (Fin 12 × Fin 8)
  proof : ProofStatus
  trip : TripState
  retry : Nat
  coolOff : Option Time
  litSince : Option Time
deriving DecidableEq, Repr, Inhabited

/-- State of a pod record (R100). -/
inductive PodState where
  | unheard
  | live
  | silent
deriving DecidableEq, Repr, Inhabited

/-- Runtime record of a pod (R100). -/
structure PodRecord where
  state : PodState
  levels : Vector Level 8
  dirty : Bool
  refresh : Option Time
  report : Option Time
deriving DecidableEq, Repr, Inhabited

/-- The load block (chapter 6). -/
structure LoadBlock where
  loads : Vector LoadRecord 32
  pods : Vector PodRecord 12
  fadeTimer : Time
deriving DecidableEq, Repr, Inhabited

/-- The flasher phase (R114). -/
inductive FlasherState where
  | idle
  | lit
  | dark
deriving DecidableEq, Repr, Inhabited

/-- The flasher rate (R114). -/
inductive Rate where
  | normal
  | fast
deriving DecidableEq, Repr, Inhabited

/-- The flasher record (R114). -/
structure Flasher where
  state : FlasherState
  counter : Nat
  loaded : Nat
  rate : Rate
  tick : Option Time
deriving DecidableEq, Repr, Inhabited

/-- Threshold state of a descriptor (R130). -/
inductive ThresholdState where
  | unknown
  | active
  | inactive
deriving DecidableEq, Repr, Inhabited

/-- Runtime record of a descriptor (R130). -/
structure DescriptorRecord where
  held : Nat
  sum : Nat
  window : Option Nat
  average : Option Nat
  threshold : ThresholdState
  stale : Bool
  staleTimer : Option Time
deriving DecidableEq, Repr, Inhabited

/-- The sampler with its coil-pulse counter (chapter 8). -/
structure Sampler where
  descriptors : Vector DescriptorRecord 16
  conversionTimer : Time
  gateCount : Nat
  lastPulse : Option Time
  gateTimer : Time
  tach : Option Nat
deriving DecidableEq, Repr, Inhabited

/-- Runtime record of a gauge (R142). -/
structure GaugeRecord where
  target : Nat
  deflection : Nat
  duty : Nat
  undersupplied : Bool
  stale : Bool
  held : Bool
deriving DecidableEq, Repr, Inhabited

/-- The fan record (R151). -/
structure FanRecord where
  fraction : Nat
  duty : Nat
  undersupplied : Bool
  held : Bool
deriving DecidableEq, Repr, Inhabited

/-- The gauge drive (chapter 9). -/
structure GaugeDrive where
  gauges : Vector GaugeRecord 4
  fan : FanRecord
  updateTimer : Time
deriving DecidableEq, Repr, Inhabited

/-- The service engine (R158): the deferred record, and the words read at the STORE's acceptance, stand in STORING alone. -/
inductive ServiceState where
  | idle
  | storing (requester : LoomAddr) (port : PortId) (image : List (Nat × Word16))
  | restarting
deriving DecidableEq, Repr, Inhabited

/-- The state of the part. -/
structure State where
  /-- The commands that wait, first in, first out (log 1). -/
  pending : List Instr
  /-- The clock, in microseconds (log 2). -/
  now : Time
  /-- How many free values have been drawn (log 9). -/
  draws : Nat
  power : Power
  straps : Straps
  tables : TableStore
  /-- The NV image: 1408 words and the check word; an unlisted address reads 0xFFFF (R13, log 11). -/
  nv : List (Nat × Word16)
  front : Port
  rear : Port
  routes : RouteEngine
  events : EventBlock
  engine : ActionEngine
  lamps : LoadBlock
  flasher : Flasher
  sampler : Sampler
  gauges : GaugeDrive
  service : ServiceState
deriving DecidableEq, Repr, Inhabited

/-- All eight counters at 0 (R31). -/
def PortCounters.zero : PortCounters := ⟨0, 0, 0, 0, 0, 0, 0, 0⟩

/-- No byte received yet. -/
def Reception.empty : Reception := ⟨[], 0, false⟩

/-- A port after a reset at moment `now` (R32). -/
def Port.afterReset (now : Time) (byteOnWire : Bool) (counters : PortCounters) : Port where
  line := .idle
  quietFrom := now
  byteOnWire := byteOnWire
  reception := .empty
  poolA := .free
  poolB := .free
  olderB := false
  queue := []
  sentBytes := 0
  refillOwed := false
  counters := counters

/-- A Directory record right after a reset, its timer not yet started (R36). -/
def SourceRecord.afterReset : SourceRecord := ⟨.unheard, none⟩

/-- A channel record after a reset, with the mask it starts with (R55). -/
def Channel.afterReset (masked : Bool) : Channel := ⟨.unknown, none, masked, false⟩

/-- A chain slot after a reset (R70). -/
def Slot.afterReset : Slot := ⟨.free, 0, none, none⟩

/-- The action engine after a reset, its counters as given (R70). -/
def ActionEngine.afterReset (chainFault slotFull : Counter) : ActionEngine where
  slots := Vector.replicate 4 .afterReset
  modes := Vector.replicate 16 false
  indicate := none
  fanRequest := 0
  chainFault := chainFault
  slotFull := slotFull

/-- A load record after a reset, before the resolution of the reset (R93). -/
def LoadRecord.afterReset : LoadRecord where
  requested := 0
  ramp := false
  current := 0
  effective := 0
  demand := false
  binding := none
  proof := .unknown
  trip := .normal
  retry := 0
  coolOff := none
  litSince := none

/-- A pod record after a reset, its timers not yet started (R100). -/
def PodRecord.afterReset : PodRecord := ⟨.unheard, Vector.replicate 8 0, false, none, none⟩

/-- The flasher after a reset (R114). -/
def Flasher.afterReset : Flasher := ⟨.idle, 0, 0, .normal, none⟩

/-- A descriptor record after a reset, its stale timer not yet started (R131). -/
def DescriptorRecord.afterReset : DescriptorRecord := ⟨0, 0, none, none, .unknown, false, none⟩

/-- The sampler after a reset at moment `now` (R128, R131, R139). -/
def Sampler.afterReset (now : Time) : Sampler where
  descriptors := Vector.replicate 16 .afterReset
  conversionTimer := now + Config.ms20
  gateCount := 0
  lastPulse := none
  gateTimer := now + Config.ms500
  tach := none

/-- A gauge record after a reset (R142). -/
def GaugeRecord.afterReset : GaugeRecord := ⟨0, 0, 0, false, false, false⟩

/-- The fan record after a reset (R151). -/
def FanRecord.afterReset : FanRecord := ⟨0, 0, false, false⟩

/-- The gauge drive after a reset at moment `now` (R142, R143, R151). -/
def GaugeDrive.afterReset (now : Time) : GaugeDrive where
  gauges := Vector.replicate 4 .afterReset
  fan := .afterReset
  updateTimer := now + Config.ms100

/-- The outputs the SEPARATE tables map the loads L0 to L20 to (R179): what the resolution of the reset binds them to. -/
def resetBindings : List (Fin 12 × Fin 8) :=
  [(0, 0), (2, 0), (3, 0), (0, 1), (0, 2), (0, 3), (1, 0), (1, 1), (0, 4), (0, 5), (2, 1), (3, 1), (1, 2), (1, 3), (1, 4), (1, 5),
   (2, 2), (3, 2), (1, 6), (1, 7), (3, 3)]

/-- The state right after a power-on, with unconnected straps (R172, log 8) and an erased NV image (log 7): the SEPARATE tables,
every block at its reset values, and every timer of section 11.2.1 started. -/
def State.reset : State where
  pending := []
  now := 0
  draws := 0
  power := .running
  straps := ⟨0, .positive, .separate⟩
  tables := ⟨[], .limp, 0⟩
  nv := []
  front := .afterReset 0 false .zero
  rear := .afterReset 0 false .zero
  routes := ⟨(Vector.replicate 64 .afterReset).set 8 ⟨.unheard, some (6 * Config.ms500)⟩, 0, 0⟩
  events := ⟨Vector.replicate 32 (.afterReset false), false, none, some Config.ms20, 0, false⟩
  engine := .afterReset 0 0
  lamps :=
    { loads := (List.finRange 32).foldl (fun v (l : Fin 32) => v.set l.val { LoadRecord.afterReset with binding := resetBindings[l.val]? })
        (Vector.replicate 32 .afterReset)
      pods := Vector.replicate 12 { PodRecord.afterReset with refresh := some Config.ms500, report := some (3 * Config.ms500) }
      fadeTimer := Config.ms100 }
  flasher := .afterReset
  sampler :=
    { Sampler.afterReset 0 with
      descriptors :=
        ((((Vector.replicate 16 .afterReset).set 0 { DescriptorRecord.afterReset with staleTimer := some (2 * Config.ms500) }).set 1
          { DescriptorRecord.afterReset with staleTimer := some (2 * Config.ms500) }).set 2
          { DescriptorRecord.afterReset with staleTimer := some (2 * Config.ms500) }).set 4
          { DescriptorRecord.afterReset with staleTimer := some (6 * Config.ms500) } }
  gauges := .afterReset 0
  service := .idle

end Sys2Proof.Machine
end

