-- ==== Sys2Proof/Machine/Ops.lean ====
section
/-! DEFINITION. The shared operations: the clock and the hold, record updates, the table store with its parity and fault marks,
block reads of an entry, and the readings of a parameter. -/

namespace Sys2Proof.Machine

/-- What a command answers. -/
abbrev Result := Host.Outcome State Fault Refusal

/-! ## The clock and the hold -/

/-- The state `dt` microseconds later (log 2). -/
def State.elapse (dt : Time) (s : State) : State := { s with now := s.now + dt }

/-- A step of the blocks: it is taken while the part runs, and not in a hold (R173). -/
def live (dt : Time) (s : State) (f : State → State) : Result :=
  .next (if s.power = .running then f (s.elapse dt) else s.elapse dt)

/-- A running timer whose time has come (log 3). -/
def due (timer : Option Time) (now : Time) : Bool :=
  match timer with
  | some t => decide (t ≤ now)
  | none => false

/-- Remaining time of a timer in a unit, rounded up; 0 when stopped (R112). -/
def remaining (timer : Option Time) (now unit : Time) : Nat :=
  match timer with
  | some t => (t - now + (unit - 1)) / unit
  | none => 0

/-! ## Records -/

/-- The vector with one entry rewritten. -/
def upd {α : Type} {n : Nat} (v : Vector α n) (i : Fin n) (f : α → α) : Vector α n := v.set i.val (f v[i]) i.isLt

/-- The record of a port. -/
def State.port (s : State) : PortId → Port
  | .front => s.front
  | .rear => s.rear

/-- The state with a port's record rewritten. -/
def State.setPort (s : State) (p : PortId) (q : Port) : State :=
  match p with
  | .front => { s with front := q }
  | .rear => { s with rear := q }

/-- The state with a load's record rewritten. -/
def State.updLoad (s : State) (l : Fin 32) (f : LoadRecord → LoadRecord) : State :=
  { s with lamps := { s.lamps with loads := upd s.lamps.loads l f } }

/-- The state with a pod's record rewritten. -/
def State.updPod (s : State) (P : Fin 12) (f : PodRecord → PodRecord) : State :=
  { s with lamps := { s.lamps with pods := upd s.lamps.pods P f } }

/-- The state with a source's record rewritten. -/
def State.updSource (s : State) (a : Fin 64) (f : SourceRecord → SourceRecord) : State :=
  { s with routes := { s.routes with sources := upd s.routes.sources a f } }

/-- The state with a channel's record rewritten. -/
def State.updChannel (s : State) (c : Fin 32) (f : Channel → Channel) : State :=
  { s with events := { s.events with channels := upd s.events.channels c f } }

/-- The state with a chain slot rewritten. -/
def State.updSlot (s : State) (k : Fin 4) (f : Slot → Slot) : State :=
  { s with engine := { s.engine with slots := upd s.engine.slots k f } }

/-- The state with a descriptor's record rewritten. -/
def State.updDescriptor (s : State) (d : Fin 16) (f : DescriptorRecord → DescriptorRecord) : State :=
  { s with sampler := { s.sampler with descriptors := upd s.sampler.descriptors d f } }

/-- The state with the tables a block read leaves (the marks and PARITY it may have moved). -/
def State.withTables (s : State) (t : TableStore) : State := { s with tables := t }

/-- A mode flag as the action engine holds it (R90). -/
def State.mode (s : State) (m : Fin 16) : Bool := s.engine.modes[m]

/-- IGNITION, M0 (R90). -/
def State.ignition (s : State) : Bool := s.mode 0

/-- SHED, M3 (R90). -/
def State.shed (s : State) : Bool := s.mode 3

/-- The hub address from the ADDR strap, 1 to 4 (R172). -/
def State.hubAddress (s : State) : LoomAddr := Fin.ofNat 64 (s.straps.addr.toNat + 1)

/-! ## Words of the table store -/

/-- Whether a word's 16 data bits hold an odd number of ones. -/
def oddOnes (w : Word16) : Bool := (List.range 16).foldl (fun odd k => odd ^^ w.getLsbD k) false

/-- A word as a write leaves it: 17 bits with an odd number of ones, and no fault mark (R8). -/
def fresh (w : Word16) : StoredWord := ⟨w, !oddOnes w, false⟩

/-- A word fails when its 17 bits hold an even number of ones (R10). -/
def StoredWord.fails (w : StoredWord) : Bool := w.parity == oddOnes w.data

/-- A word whose stored bits have been disturbed: it no longer agrees with its parity bit, and keeps its mark (R10, log 12). -/
def StoredWord.disturb (w : StoredWord) (data : Word16) : StoredWord := ⟨data, oddOnes data, w.mark⟩

/-- What an unlisted address of the store reads as: the SEPARATE limp word with fresh parity, the contents at reset (log 11). -/
def unlistedWord (a : Nat) : StoredWord := fresh (Limp.word .separate a)

namespace TableStore

/-- The word at an address. -/
def word (t : TableStore) (a : Nat) : StoredWord := Memory.read unlistedWord t.cells a

/-- The store with one word rewritten whole. -/
def setWord (t : TableStore) (a : Nat) (w : StoredWord) : TableStore := { t with cells := Memory.write unlistedWord t.cells a w }

/-- The store with consecutive words written by a WRITE-TABLE: fresh parity, no marks (R8). -/
def writeWords (t : TableStore) (a : Nat) : List Word16 → TableStore
  | [] => t
  | w :: ws => writeWords (t.setWord a (fresh w)) (a + 1) ws

/-- The store with a whole image written, fresh parity and no marks (R8, R13). -/
def fill (t : TableStore) (image : Nat → Word16) (source : TableSource) : TableStore :=
  { t with cells := Memory.ofFn unlistedWord tableWords fun a => fresh (image a), source := source }

/-- The store with a fault mark on each of the words named (R10). -/
def markAll (t : TableStore) (bad : List Nat) : TableStore :=
  bad.foldl (fun t a => t.setWord a { t.word a with mark := true }) t

/-- The addresses of a range whose words fail. -/
def failing (t : TableStore) (a n : Nat) : List Nat := (List.range' a n).filter fun b => (t.word b).fails

/-- One block read of the `n` words from address `a` (R10): good, it gives their data; otherwise PARITY counts by 1 and each failing
word is marked. -/
def readBlock (t : TableStore) (a n : Nat) : TableStore × Option (List Word16) :=
  match t.failing a n with
  | [] => (t, some ((List.range' a n).map fun b => (t.word b).data))
  | bad => ({ t.markAll bad with parityCount := t.parityCount.bump }, none)

/-- The addresses of the words that carry a fault mark. -/
def marked (t : TableStore) : List Nat := (List.range tableWords).filter fun a => (t.word a).mark

/-- TABLE-FAULT: at least one word carries a fault mark (R10). -/
def tableFault (t : TableStore) : Bool := !t.marked.isEmpty

/-- Block read of a DIRECTORY slot (R2). -/
def directory (t : TableStore) (a : Fin 64) : TableStore × Option DirectoryEntry :=
  let r := t.readBlock (address .directory (a.val * 2)) 2
  (r.1, r.2.map directoryOf)

/-- Block read of a ROUTE entry (R2). -/
def route (t : TableStore) (i : Fin 128) : TableStore × Option RouteEntry :=
  let r := t.readBlock (address .route (i.val * 2)) 2
  (r.1, r.2.map routeOf)

/-- Block read of an EVENT entry (R3). -/
def event (t : TableStore) (c : Fin 32) : TableStore × Option EventEntry :=
  let r := t.readBlock (address .event (c.val * 2)) 2
  (r.1, r.2.map eventOf)

/-- Block read of an ACTION entry (R3). -/
def action (t : TableStore) (i : Fin 256) : TableStore × Option ActionEntry :=
  let r := t.readBlock (address .action (i.val * 2)) 2
  (r.1, r.2.map actionOf)

/-- Block read of a LOAD entry (R4). -/
def load (t : TableStore) (l : Fin 32) : TableStore × Option LoadEntry :=
  let r := t.readBlock (address .load (l.val * 4)) 4
  (r.1, r.2.map loadOf)

/-- Block read of a POD entry (R4). -/
def pod (t : TableStore) (P : Fin 12) : TableStore × Option PodEntry :=
  let r := t.readBlock (address .pod (P.val * 2)) 2
  (r.1, r.2.map podOf)

/-- Block read of a DESCRIPTOR entry (R5). -/
def descriptor (t : TableStore) (d : Fin 16) : TableStore × Option DescriptorEntry :=
  let r := t.readBlock (address .descriptor (d.val * 4)) 4
  (r.1, r.2.map descriptorOf)

/-- Block read of a GAUGE entry G0 to G3 (R5). -/
def gauge (t : TableStore) (g : Fin 4) : TableStore × Option GaugeEntry :=
  let r := t.readBlock (address .gauge (g.val * 4)) 4
  (r.1, r.2.map gaugeOf)

/-- Block read of the fan entry and the fan level table, GAUGE indexes 16 to 27, as one read (R154). -/
def fan (t : TableStore) : TableStore × Option FanEntry :=
  let r := t.readBlock (address .gauge 16) 12
  (r.1, r.2.map fanOf)

/-- Block read of a curve, its sixteen words as one read (R144). -/
def curve (t : TableStore) (c : Fin 8) : TableStore × Option Curve :=
  let r := t.readBlock (address .curve (c.val * 16)) 16
  (r.1, r.2.map curveOf)

/-- Block read of a parameter: clamped to its range, or its limp value when the word fails parity (R6, R7, R12). -/
def param (t : TableStore) (p : Param) : TableStore × Nat :=
  let r := t.readBlock (address .parameters p.index) 1
  (r.1, match r.2 with
    | some ws => p.use (wordAt ws 0).toNat
    | none => p.limp)

/-- A parameter as a READ-STATE reads it: a failing word reads as its limp value and nothing moves (R163). -/
def peekParam (t : TableStore) (p : Param) : Nat :=
  let w := t.word (address .parameters p.index)
  if w.fails then p.limp else p.use w.data.toNat

end TableStore

end Sys2Proof.Machine
end

