-- ==== Sys2Proof/Machine/Events.lean ====
section
/-! DEFINITION. Level reports to event channels (R56 to R61). -/

namespace Sys2Proof.Machine

/-- The level a report gives. -/
def levelOf (closed : Bool) : ChannelLevel := if closed then .isClosed else .isOpen

/-- The edge a report makes at a channel of level `before` that differs from it (R58, R59). -/
def edgeOf (before : ChannelLevel) (closed : Bool) : Option Edge :=
  match before, closed with
  | .isOpen, true => some .closing
  | .unknown, true => some .closing
  | .isClosed, false => some .opening
  | .unknown, false => none
  | .isClosed, true => none
  | .isOpen, false => none

/-- Acceptance of an edge by enable and edge select (R60). -/
def EventEntry.accepts (e : EventEntry) (edge : Edge) : Bool :=
  e.enable &&
    match e.select, edge with
    | .both, _ => true
    | .closing, .closing => true
    | .opening, .opening => true
    | .closing, .opening => false
    | .opening, .closing => false

/-- An accepted edge becomes the channel's pending edge, and calls for a choice; EDGE-LOST counts when it replaces one (R61, R72). It counts so too where
a write of enable off follows together with the edge, by the model's choice (R68, log 32). -/
def EventBlock.acceptEdge (b : EventBlock) (c : Fin 32) (edge : Edge) : EventBlock :=
  { b with
    channels := upd b.channels c fun ch => { ch with pending := some edge }
    edgeLost := if (b.channels[c]).pending.isSome then b.edgeLost.bump else b.edgeLost
    choiceMade := false }

/-- One level report taken at the event block (R58 to R61). -/
def EventBlock.report (t : TableStore) (b : EventBlock) (c : Fin 32) (closed : Bool) : TableStore × EventBlock :=
  let before := (b.channels[c]).level
  let b' := { b with channels := upd b.channels c fun ch => { ch with level := levelOf closed } }
  match edgeOf before closed with
  | none => (t, b')
  | some edge =>
    let r := t.event c
    (r.1, match r.2 with
      | some e => if e.accepts edge then b'.acceptEdge c edge else b'
      | none => b')

/-- Something calls for a choice of the engine (R72). -/
def State.callChoice (s : State) : State := { s with events := { s.events with choiceMade := false } }

/-- One level report (R56). -/
def reportLevel (s : State) (c : Fin 32) (closed : Bool) : State :=
  let r := s.events.report s.tables c closed
  { s with tables := r.1, events := r.2 }

/-- A level report to a channel field, which may be NONE. -/
def reportTo (s : State) (c : Option (Fin 32)) (closed : Bool) : State :=
  match c with
  | some c => reportLevel s c closed
  | none => s

end Sys2Proof.Machine
end

