-- ==== Sys2Proof/Machine/Flags.lean ====
section
/-! DEFINITION. The judgements that set a status or a flag from numbers alone: the threshold state of a descriptor, the proof
status of a load, a duty with its UNDERSUPPLIED flag, and one step toward a target. -/

namespace Sys2Proof.Machine

/-- The average of a full window of `n` samples of sum `sum`, half rounded up (R133). -/
def averageOf (sum n : Nat) : Nat := (sum + n / 2) / n

/-- The release level of a threshold (R134). -/
def releaseLevel (sense : Sense) (threshold hysteresis : Nat) : Nat :=
  match sense with
  | .above => threshold - hysteresis
  | .below => min 1023 (threshold + hysteresis)

/-- The threshold state after a window whose average is `a` (R134). -/
def thresholdAfter (e : DescriptorEntry) (before : ThresholdState) (a : Nat) : ThresholdState :=
  match e.sense, before with
  | .above, .unknown => if e.threshold ≤ a then .active else .inactive
  | .above, .inactive => if e.threshold ≤ a then .active else .inactive
  | .above, .active => if a < releaseLevel .above e.threshold e.hysteresis then .inactive else .active
  | .below, .unknown => if a ≤ e.threshold then .active else .inactive
  | .below, .inactive => if a ≤ e.threshold then .active else .inactive
  | .below, .active => if releaseLevel .below e.threshold e.hysteresis < a then .inactive else .active

/-- Lit filaments a reported current stands for (R108). -/
def litFilaments (current bulbCurrent : Nat) : Nat := (current + bulbCurrent / 2) / bulbCurrent

/-- The proof status a count of lit filaments gives (R108). -/
def proofOf (bulbs lit : Nat) : ProofStatus := if bulbs ≤ lit then .proven else if lit = 0 then .isOpen else .degraded

/-- A quotient rounded half up (R148). -/
def roundedQuotient (num den : Nat) : Nat := (2 * num + den) / (2 * den)

/-- A duty worked out, and UNDERSUPPLIED: set when the result is above 1024, which then becomes 1024 (R148, R154). -/
def dutyOf (num den : Nat) : Nat × Bool :=
  if 1024 < roundedQuotient num den then (1024, true) else (roundedQuotient num den, false)

/-- Duty of a gauge from its kind, deflection, supply value and reference voltage (R148). -/
def gaugeDuty (kind : GaugeKind) (h vs vref : Nat) : Nat × Bool :=
  match kind with
  | .thermal => dutyOf (h * 1024 * vref * vref) (1000 * vs * vs)
  | .coil => dutyOf (h * 1024 * vref) (1000 * vs)
  | .off => (0, false)

/-- Duty of the fan (R154). -/
def fanDuty (f vs vfan : Nat) : Nat × Bool := dutyOf (f * 1024 * vfan) (1000 * vs)

/-- A value moved toward a target by at most `step` (R147, R154). -/
def approach (value target step : Nat) : Nat :=
  if value ≤ target then (if target - value ≤ step then target else value + step)
  else if value - target ≤ step then target else value - step

/-- The fan's effective level (R152). -/
def fanEffective (ignition shed : Bool) (request cap : Nat) : Nat :=
  if ignition then (if shed then min request cap else request) else 0

end Sys2Proof.Machine
end

