-- ==== Sys2Proof/Machine/Frames.lean ====
section
/-! DEFINITION. Frames: their bytes, their check (R17, R18, R181), the judgement of form and check of a received frame (R19, R20),
and its class (R21). -/

namespace Sys2Proof.Machine

/-- Ones' complement addition of two 16-bit values: the carry out is added back (R18). -/
def onesAdd (a b : Nat) : Nat := if a + b < 65536 then a + b else a + b - 65535

/-- Bytes paired into 16-bit words, first byte high, an odd last byte with a zero low byte (R18). -/
def pairWords : List Byte → List Nat
  | [] => []
  | [a] => [a.toNat * 256]
  | a :: b :: rest => (a.toNat * 256 + b.toNat) :: pairWords rest

/-- The ones' complement sum of words from a start of 0 (R13, R18). -/
def onesSum (ws : List Nat) : Nat := ws.foldl onesAdd 0

/-- The check over a frame's header and payload bytes (R18). -/
def checkOf (bytes : List Byte) : Word16 := ~~~(BitVec.ofNat 16 (onesSum (pairWords bytes)))

/-- A number as its two bytes, high byte first. -/
def twoBytes (n : Nat) : List Byte := [BitVec.ofNat 8 (n / 256), BitVec.ofNat 8 n]

/-- One byte of a number. -/
def oneByte (n : Nat) : List Byte := [BitVec.ofNat 8 n]

/-- Header and payload of a frame (R181). -/
def Frame.body (f : Frame) : List Byte :=
  [BitVec.ofNat 8 f.dest.val, BitVec.ofNat 8 f.src.val, BitVec.ofNat 8 f.kind.val, BitVec.ofNat 8 f.payload.length] ++ f.payload

/-- The check of a frame (R18). -/
def Frame.check (f : Frame) : Word16 := checkOf f.body

/-- A frame as sent: header, payload and check (R181). -/
def Frame.bytes (f : Frame) : List Byte := f.body ++ twoBytes f.check.toNat

/-- Byte `k` of a list, 0 beyond its end. -/
def byteAt (bs : List Byte) (k : Nat) : Nat := (bs.getD k 0#8).toNat

/-- The kinds the hub knows by name (R17). -/
abbrev kindLampcmd : Fin 16 := 2
/-- Kind SERVICE (R17). -/
abbrev kindService : Fin 16 := 4
/-- Kind SERVICE-REPLY (R17). -/
abbrev kindServiceReply : Fin 16 := 5

/-- A byte ends in the frame in progress: the first 22 bytes are kept, every byte is counted, and a missing stop bit is a byte fault
(R15, R19, log 27). -/
def Reception.add (r : Reception) (value : Byte) (stopFound : Bool) : Reception where
  bytes := if r.bytes.length < 22 then r.bytes ++ [value] else r.bytes
  count := r.count + 1
  byteFault := r.byteFault || !stopFound

/-- The judgement of form (R19). -/
def Reception.formatError (r : Reception) : Bool :=
  let len := byteAt r.bytes 3
  decide (r.count < 6) || decide (r.count ≠ 6 + len) || decide (16 < len) || decide (15 < byteAt r.bytes 2) ||
    decide (63 < byteAt r.bytes 0) || decide (63 < byteAt r.bytes 1) || r.byteFault

/-- The frame a well-formed reception holds. -/
def Reception.frame (r : Reception) : Frame where
  dest := Fin.ofNat 64 (byteAt r.bytes 0)
  src := Fin.ofNat 64 (byteAt r.bytes 1)
  kind := Fin.ofNat 16 (byteAt r.bytes 2)
  payload := (r.bytes.drop 4).take (byteAt r.bytes 3)

/-- The received check (R181). -/
def Reception.receivedCheck (r : Reception) : Nat :=
  byteAt r.bytes (4 + byteAt r.bytes 3) * 256 + byteAt r.bytes (5 + byteAt r.bytes 3)

/-- The judgement of check (R18, R20). -/
def Reception.checkPasses (r : Reception) : Bool := r.receivedCheck == r.frame.check.toNat

/-- The class of a good frame, from the hub address and the group addresses as read (R21). -/
def classify (hub : LoomAddr) (group1 group2 : Nat) (f : Frame) : FrameClass :=
  if f.dest = hub then (if f.kind = kindService then .serviceRequest else .routed)
  else if f.dest = 63 ∨ (group1 ≠ 0 ∧ f.dest.val = group1) ∨ (group2 ≠ 0 ∧ f.dest.val = group2) then .routed
  else .transit

end Sys2Proof.Machine
end

