-- ==== Sys2Proof/Machine/Ports.lean ====
section
/-! DEFINITION. The receive pools and the transmit queue of a port (R22, R23, R25, R27, R28). -/

namespace Sys2Proof.Machine

/-- The quiet on a port's wire has reached `t`: no byte is on the wire, and the quiet timer was restarted `t` ago (R15, log 18). -/
def Port.quietFor (q : Port) (now t : Time) : Bool := !q.byteOnWire && decide (q.quietFrom + t ≤ now)

/-- When no pool is SERVING, the older HELD frame's pool becomes SERVING (R23). -/
def Port.handOver (q : Port) : Port :=
  match q.poolA, q.poolB with
  | .held a, .free => { q with poolA := .serving a }
  | .free, .held b => { q with poolB := .serving b }
  | .held a, .held b => if q.olderB then { q with poolB := .serving b } else { q with poolA := .serving a }
  | .free, .free => q
  | .serving _, _ => q
  | _, .serving _ => q

/-- A good frame is placed in a FREE pool and RX-GOOD counts, or it is lost and RX-OVERFLOW counts (R22, log 17). -/
def Port.place (q : Port) (h : HeldFrame) : Port :=
  match q.poolA, q.poolB with
  | .free, .free => { q with poolA := .held h, olderB := false, counters := { q.counters with rxGood := q.counters.rxGood.bump } }
  | .free, _ => { q with poolA := .held h, olderB := true, counters := { q.counters with rxGood := q.counters.rxGood.bump } }
  | _, .free => { q with poolB := .held h, olderB := false, counters := { q.counters with rxGood := q.counters.rxGood.bump } }
  | _, _ => { q with counters := { q.counters with rxOverflow := q.counters.rxOverflow.bump } }

/-- The frame in the hands of its consumer (R23). -/
def Port.serving (q : Port) : Option HeldFrame :=
  match q.poolA, q.poolB with
  | .serving h, _ => some h
  | _, .serving h => some h
  | _, _ => none

/-- The consumer releases its pool, and the next frame is handed over (R22, R23). -/
def Port.release (q : Port) : Port :=
  match q.poolA, q.poolB with
  | .serving _, _ => { q with poolA := .free, olderB := false }.handOver
  | _, .serving _ => { q with poolB := .free, olderB := false }.handOver
  | _, _ => q

/-- The frame a port's consumer of one class is working on. -/
def Port.servingOf (q : Port) (c : FrameClass) : Option Frame :=
  match q.serving with
  | some h => if h.cls = c then some h.frame else none
  | none => none

/-- A frame appended at the tail, its started mark clear (R25). -/
def Port.append (q : Port) (f : Frame) (pod : Option (Fin 12)) (restartReply : Bool) : Port :=
  { q with queue := q.queue ++ [⟨f, false, pod, restartReply⟩] }

/-- A forwarded or transit copy is appended, or dropped with TX-DROP at a full queue (R27). -/
def Port.offerCopy (q : Port) (f : Frame) : Port :=
  if q.queue.length < 8 then q.append f none false
  else { q with counters := { q.counters with txDrop := q.counters.txDrop.bump } }

/-- A SERVICE-REPLY is appended, or dropped with SERVICE-DROP at a full queue (R27). -/
def Port.offerReply (q : Port) (f : Frame) (restartReply : Bool) : Port :=
  if q.queue.length < 8 then q.append f none restartReply
  else { q with counters := { q.counters with serviceDrop := q.counters.serviceDrop.bump } }

/-- An entry that is a not-started LAMPCMD for a pod record (R28). -/
def QueueEntry.waitsFor (e : QueueEntry) (P : Fin 12) : Bool := !e.started && e.pod == some P

/-- The queue with the payload of the not-started LAMPCMD for `P` replaced in place; the entry keeps its place and the rest of its
frame (R28). -/
def replacePayload (P : Fin 12) (payload : List Byte) : List QueueEntry → List QueueEntry
  | [] => []
  | e :: rest =>
    if e.waitsFor P then { e with frame := { e.frame with payload := payload } } :: rest else e :: replacePayload P payload rest

/-- Coalescing of a LAMPCMD for `P` (R28): replaced in place, appended, or `none` at a full queue. -/
def Port.coalesce (q : Port) (P : Fin 12) (f : Frame) : Option Port :=
  if q.queue.any (·.waitsFor P) then some { q with queue := replacePayload P f.payload q.queue }
  else if q.queue.length < 8 then some (q.append f (some P) false)
  else none

/-- The queue with its head frame's started mark set (R25). -/
def startHead : List QueueEntry → List QueueEntry
  | [] => []
  | e :: rest => { e with started := true } :: rest

end Sys2Proof.Machine
end

