-- ==== Sys2Proof/Machine/Lamps.lean ====
section
/-! DEFINITION. The load block (chapter 6): resolution, the pod merge, LAMPCMD production and refill, lamp reports, trips. -/

namespace Sys2Proof.Machine

/-- What a resolution reads besides the load and its entry (R95 to R98). -/
structure LampEnv where
  ignition : Bool
  hazard : Bool
  brake : Bool
  indicate : Option Side
  lit : Bool
  now : Time
deriving DecidableEq, Repr

/-- The environment of a resolution as the blocks stand. -/
def State.lampEnv (s : State) : LampEnv :=
  ⟨s.mode 0, s.mode 1, s.mode 2, s.engine.indicate, s.flasher.state == .lit, s.now⟩

/-- Whether a side is flashing; a side of NONE never is (R95, R113). -/
def LampEnv.flashing (v : LampEnv) : Option Side → Bool
  | some sd => v.hazard || (v.ignition && v.indicate == some sd)
  | none => false

/-- Whether either side is flashing (R113). -/
def LampEnv.eitherFlashing (v : LampEnv) : Bool := v.flashing (some .left) || v.flashing (some .right)

/-- Demand of a load (R95). -/
def demandOf (v : LampEnv) (e : LoadEntry) (requested : Level) : Bool :=
  match e.kind with
  | .plain => decide (0 < requested)
  | .stop => v.brake
  | .indicator => v.flashing e.side
  | .stopTurn => v.flashing e.side || v.brake
  | .repeater => v.eitherFlashing

/-- Binding of a load from its entry (R99). -/
def bindingOf (e : LoadEntry) : Option (Fin 12 × Fin 8) := e.pod.map fun P => (P, e.output)

/-- Step 1 of a resolution: the binding, and what a change of it forgets (R99). -/
def LoadRecord.bind (r : LoadRecord) (e : LoadEntry) : LoadRecord :=
  if bindingOf e = r.binding then r else { r with binding := bindingOf e, proof := .unknown, litSince := none }

/-- Trip state, retry count and cool-off cleared, by a fall of demand or by service (R110, R167). -/
def LoadRecord.clearTrip (r : LoadRecord) : LoadRecord := { r with trip := .normal, retry := 0, coolOff := none }

/-- Step 2 of a resolution: demand, and its fall (R95, R110). -/
def LoadRecord.judgeDemand (r : LoadRecord) (demand : Bool) : LoadRecord :=
  { (if r.demand && !demand then r.clearTrip else r) with demand := demand }

/-- Whether a load is gated to level 0 (R96). -/
def gated (v : LampEnv) (e : LoadEntry) (r : LoadRecord) : Bool :=
  r.binding.isNone || r.trip != .normal ||
    ((e.kind == .plain || e.kind == .stop) && e.policy == .drop && !v.ignition)

/-- One step of a level toward another (R98). -/
def stepLevel (current requested : Level) : Level :=
  if current < requested then current + 1 else if requested < current then current - 1 else current

/-- The current level after a resolution (R92, R96, R97, R98); `fade`: the resolution is that of a load fade expiry. -/
def currentOf (kind : LoadKind) (isGated fade : Bool) (r : LoadRecord) : Level :=
  if kind = .plain then
    if isGated then 0
    else if r.ramp then (if fade then stepLevel r.current r.requested else r.current)
    else r.requested
  else r.requested

/-- The effective level of a load that is not gated (R97). -/
def drivenLevel (v : LampEnv) (e : LoadEntry) (current : Level) : Level :=
  match e.kind with
  | .plain => current
  | .stop => if v.brake then 15 else 0
  | .indicator => if v.flashing e.side && v.lit then 15 else 0
  | .stopTurn => if v.flashing e.side then (if v.lit then 15 else 0) else if v.brake then 15 else 0
  | .repeater => if v.eitherFlashing && v.lit then 15 else 0

/-- Step 3 of a resolution: current and effective level (R96 to R98). -/
def LoadRecord.drive (r : LoadRecord) (v : LampEnv) (fade : Bool) (e : LoadEntry) : LoadRecord :=
  let g := gated v e r
  let c := currentOf e.kind g fade r
  { r with current := c, effective := if g then 0 else drivenLevel v e c }

/-- Step 4 of a resolution: lit-since (R99). -/
def LoadRecord.judgeLit (r : LoadRecord) (now : Time) : LoadRecord :=
  { r with litSince := if r.effective = 15 then some (r.litSince.getD now) else none }

/-- The good resolution of a load (R94). -/
def LoadRecord.resolve (r : LoadRecord) (v : LampEnv) (fade : Bool) (e : LoadEntry) : LoadRecord :=
  (((r.bind e).judgeDemand (demandOf v e r.requested)).drive v fade e).judgeLit v.now

/-- The resolution of a load whose entry fails parity (R94, log 14). -/
def LoadRecord.resolveFailing (r : LoadRecord) : LoadRecord := { r with effective := 0, current := 0, litSince := none }

/-- One load resolved: its LOAD entry is read once (R94). -/
def resolveLoad (v : LampEnv) (fade : Bool) (p : TableStore × Vector LoadRecord 32) (l : Fin 32) :
    TableStore × Vector LoadRecord 32 :=
  let r := p.1.load l
  (r.1, upd p.2 l fun rec =>
    match r.2 with
    | some e => rec.resolve v fade e
    | none => rec.resolveFailing)

/-- The higher of two levels. -/
def higher (a b : Level) : Level := if a ≤ b then b else a

/-- The eight merged levels of a pod record (R101). -/
def mergedLevels (loads : Vector LoadRecord 32) (P : Fin 12) : Vector Level 8 :=
  (List.finRange 32).foldl
    (fun v l =>
      match (loads[l]).binding with
      | some (Q, k) => if Q = P then upd v k fun m => higher m (loads[l]).effective else v
      | none => v)
    (Vector.replicate 8 0)

/-- The payload of a LAMPCMD: output 2j in the high four bits of byte j, output 2j + 1 in the low four (R102, R181). -/
def lampPayload (levels : Vector Level 8) : List Byte :=
  [0, 1, 2, 3].map fun j : Fin 4 =>
    BitVec.ofNat 8 ((levels[2 * j.val]'(by omega)).val * 16 + (levels[2 * j.val + 1]'(by omega)).val)

/-- The LAMPCMD of a pod record whose POD entry reads `address` (R102). -/
def lampFrame (s : State) (P : Fin 12) (dest : LoomAddr) : Frame :=
  ⟨dest, s.hubAddress, kindLampcmd, lampPayload (s.lamps.pods[P]).levels⟩

/-- A LAMPCMD offered by coalescing: a frame queued clears the dirty mark, a full queue sets it (R28). -/
def offerLampcmd (s : State) (P : Fin 12) (e : PodEntry) : State :=
  match (s.port e.port).coalesce P (lampFrame s P e.address) with
  | some q => (s.setPort e.port q).updPod P fun r => { r with dirty := false }
  | none => s.updPod P fun r => { r with dirty := true }

/-- A LAMPCMD produced for a pod record (R102): a POD entry that fails, or whose address is 0, gives no frame and takes away the dirty
mark. -/
def produceLampcmd (s : State) (P : Fin 12) : State :=
  let r := s.tables.pod P
  let s := s.withTables r.1
  match r.2 with
  | some e => if e.address = 0 then s.updPod P fun r => { r with dirty := false } else offerLampcmd s P e
  | none => s.updPod P fun r => { r with dirty := false }

/-- The merge of one pod record (R101): changed levels are taken and one LAMPCMD is produced. -/
def mergePod (s : State) (P : Fin 12) : State :=
  let m := mergedLevels s.lamps.loads P
  if m = (s.lamps.pods[P]).levels then s else produceLampcmd (s.updPod P fun r => { r with levels := m }) P

/-- A resolution event (R94, R101): the loads named are resolved in order, then the pods merged in pod-table order. -/
def resolveLoads (s : State) (fade : Bool) (ls : List (Fin 32)) : State :=
  let r := ls.foldl (resolveLoad s.lampEnv fade) (s.tables, s.lamps.loads)
  (List.finRange 12).foldl mergePod { s with tables := r.1, lamps := { s.lamps with loads := r.2 } }

/-- A resolution event of all 32 loads (R94). -/
def resolveAll (s : State) : State := resolveLoads s false (List.finRange 32)

/-- The refill of a port from its dirty pods (R29): the pods left to take, in pod-table order. -/
def refillFrom (p : PortId) : List (Fin 12) → State → State
  | [], s => s
  | P :: rest, s =>
    if (s.lamps.pods[P]).dirty then
      let r := s.tables.pod P
      let s := s.withTables r.1
      match r.2 with
      | none => refillFrom p rest (s.updPod P fun r => { r with dirty := false })
      | some e =>
        if e.port ≠ p then refillFrom p rest s
        else if e.address = 0 then refillFrom p rest (s.updPod P fun r => { r with dirty := false })
        else
          match (s.port p).coalesce P (lampFrame s P e.address) with
          | some q => refillFrom p rest ((s.setPort p q).updPod P fun r => { r with dirty := false })
          | none => s
    else refillFrom p rest s

/-- The refill an entry's freeing starts (R29). -/
def refill (s : State) (p : PortId) : State := refillFrom p (List.finRange 12) s

/-! ## Lamp reports -/

/-- A pod's refresh timer started now: the refresh period is read for it (R100). -/
def startRefresh (s : State) (P : Fin 12) : State :=
  let r := s.tables.param .refreshPeriod
  (s.withTables r.1).updPod P fun q => { q with refresh := some (s.now + r.2 * Config.ms500) }

/-- A pod's report timer started now: three refresh periods, the period read for it (R100, R104). -/
def startReport (s : State) (P : Fin 12) : State :=
  let r := s.tables.param .refreshPeriod
  (s.withTables r.1).updPod P fun q => { q with report := some (s.now + 3 * r.2 * Config.ms500) }

/-- A flagged load trips (R106). -/
def tripLoad (t : TableStore) (now : Time) (r : LoadRecord) : TableStore × LoadRecord :=
  let limit := t.param .retryLimit
  if limit.2 ≤ r.retry + 1 then (limit.1, { r with retry := r.retry + 1, trip := .latched })
  else
    let c := limit.1.param .coolOff
    (c.1, { r with retry := r.retry + 1, trip := .cooling, coolOff := some (now + c.2 * Config.ms100) })

/-- A load's current judged for proof (R107, R108). -/
def proveLoad (t : TableStore) (now : Time) (e : LoadEntry) (current : Nat) (r : LoadRecord) : TableStore × LoadRecord :=
  match r.litSince with
  | none => (t, r)
  | some since =>
    if r.effective = 15 then
      let delay := t.param .provingDelay
      if since + delay.2 * Config.ms10 ≤ now then
        let status := proofOf e.bulbs (litFilaments current e.current)
        (delay.1, { r with proof := status, retry := if status = .isOpen then r.retry else 0 })
      else (delay.1, r)
    else (t, r)

/-- The tripped mark a report carries for an output (R105). -/
def reportFlag (payload : List Byte) (k : Fin 8) : Bool := (payload.getD 0 0#8).getLsbD k.val

/-- The current a report carries for an output (R105). -/
def reportCurrent (payload : List Byte) (k : Fin 8) : Nat := byteAt payload (1 + k.val)

/-- One bound load judged by a report (step 3 of R105); the loads whose trip state has changed are collected. -/
def judgeLoad (now : Time) (P : Fin 12) (payload : List Byte) (p : TableStore × Vector LoadRecord 32 × List (Fin 32)) (l : Fin 32) :
    TableStore × Vector LoadRecord 32 × List (Fin 32) :=
  let rec0 := p.2.1[l]
  match rec0.binding with
  | none => p
  | some (Q, k) =>
    if Q = P then
      let r := p.1.load l
      match r.2 with
      | none => (r.1, p.2)
      | some e =>
        if reportFlag payload k ∧ 0 < rec0.effective ∧ rec0.trip = .normal then
          let x := tripLoad r.1 now rec0
          (x.1, upd p.2.1 l (fun _ => x.2), p.2.2 ++ [l])
        else
          let x := proveLoad r.1 now e (reportCurrent payload k) rec0
          (x.1, upd p.2.1 l (fun _ => x.2), p.2.2)
    else p

/-- A matched report taken by the load block (R105). -/
def takeReport (s : State) (P : Fin 12) (payload : List Byte) : State :=
  let s := startReport (s.updPod P fun r => { r with state := .live }) P
  let r := (List.finRange 32).foldl (judgeLoad s.now P payload) (s.tables, s.lamps.loads, [])
  let s := { s with tables := r.1, lamps := { s.lamps with loads := r.2.1 } }
  if r.2.2.isEmpty then s else resolveLoads s false r.2.2

/-- A pod falls silent: the proof status of every load bound to it becomes UNKNOWN (R104). -/
def forgetProof (P : Fin 12) (v : Vector LoadRecord 32) (l : Fin 32) : Vector LoadRecord 32 :=
  match (v[l]).binding with
  | some (Q, _) => if Q = P then upd v l fun r => { r with proof := .unknown } else v
  | none => v

/-! ## The commands -/

/-- LOAD_FADE_EXPIRY (R98, R94): each load whose ramp flag is on and whose current level differs from its request is resolved; the timer
expires every 100 ms from the reset. -/
def execLoadFadeExpiry (dt : Time) (s : State) : Result :=
  live dt s fun s =>
    if s.lamps.fadeTimer ≤ s.now then
      let s := { s with lamps := { s.lamps with fadeTimer := s.lamps.fadeTimer + Config.ms100 } }
      resolveLoads s true ((List.finRange 32).filter fun l =>
        (s.lamps.loads[l]).ramp && decide ((s.lamps.loads[l]).current ≠ (s.lamps.loads[l]).requested))
    else s

/-- COOL_OFF_EXPIRY (R109). -/
def execCoolOffExpiry (dt : Time) (l : Fin 32) (s : State) : Result :=
  live dt s fun s =>
    if due (s.lamps.loads[l]).coolOff s.now then
      resolveLoads (s.updLoad l fun r => { r with coolOff := none, trip := if r.trip = .cooling then .normal else r.trip }) false [l]
    else s

/-- REFRESH_EXPIRY (R103). -/
def execRefreshExpiry (dt : Time) (pod : Fin 12) (s : State) : Result :=
  live dt s fun s => if due (s.lamps.pods[pod]).refresh s.now then startRefresh (produceLampcmd s pod) pod else s

/-- REPORT_TIMER_EXPIRY (R104). -/
def execReportTimerExpiry (dt : Time) (pod : Fin 12) (s : State) : Result :=
  live dt s fun s =>
    if due (s.lamps.pods[pod]).report s.now then
      let s := s.updPod pod fun r => { r with state := .silent, report := none }
      { s with lamps := { s.lamps with loads := (List.finRange 32).foldl (forgetProof pod) s.lamps.loads } }
    else s

end Sys2Proof.Machine
end

