-- ==== Sys2Proof/Machine/Flashing.lean ====
section
/-! DEFINITION. The flasher (chapter 7): rate, phases, start and stop. -/

namespace Sys2Proof.Machine

/-- Whether a load counts for the FAST rate (R121). -/
def countsForRate (v : LampEnv) (e : LoadEntry) (proof : ProofStatus) : Bool :=
  e.pod.isSome && (e.kind == .indicator || e.kind == .stopTurn) && v.flashing e.side && (proof == .degraded || proof == .isOpen)

/-- One load of the rate judgement: its LOAD entry is read, and a failing one is left out (R121, R12). -/
def judgeRateAt (v : LampEnv) (loads : Vector LoadRecord 32) (p : TableStore × Rate) (l : Fin 32) : TableStore × Rate :=
  let r := p.1.load l
  (r.1, match r.2 with
    | some e => if countsForRate v e (loads[l]).proof then .fast else p.2
    | none => p.2)

/-- The rate judgement of a phase start (R121). -/
def judgeRate (s : State) : TableStore × Rate :=
  (List.finRange 32).foldl (judgeRateAt s.lampEnv s.lamps.loads) (s.tables, .normal)

/-- The length a counter is loaded with: halved, rounded up, at the FAST rate (R122). -/
def phaseLength (rate : Rate) (n : Nat) : Nat :=
  match rate with
  | .normal => n
  | .fast => (n + 1) / 2

/-- A phase start: the rate is judged, the length read and adjusted, and the phase begins (R116, R117). -/
def startPhase (s : State) (phase : FlasherState) : State :=
  let j := judgeRate s
  let len := j.1.param (if phase = .lit then .litLength else .darkLength)
  let n := phaseLength j.2 len.2
  { s with tables := len.1, flasher := { s.flasher with state := phase, counter := n, loaded := n, rate := j.2 } }

/-- The flasher stopped: its rate keeps the value last judged (R118). -/
def Flasher.stopped (f : Flasher) : Flasher := ⟨.idle, 0, 0, f.rate, none⟩

/-- The flasher's own part of a group of changes: it starts when a side flashes while it is IDLE, and stops when none does while it is
not (R116, R118, R119). -/
def settleFlasher (s : State) : State :=
  if s.lampEnv.eitherFlashing then
    if s.flasher.state = .idle then
      startPhase { s with flasher := { s.flasher with tick := some (s.now + Config.ms10) } } .lit
    else s
  else if s.flasher.state = .idle then s
  else { s with flasher := s.flasher.stopped }

/-- The phase after a phase (R117). -/
def FlasherState.after : FlasherState → FlasherState
  | .lit => .dark
  | .dark => .lit
  | .idle => .idle

/-- One expiry of the tick timer while the flasher runs (R115, R117). -/
def tickFlasher (s : State) (t : Time) : State :=
  let s := { s with flasher := { s.flasher with counter := s.flasher.counter - 1, tick := some (t + Config.ms10) } }
  if s.flasher.counter = 0 then resolveAll (startPhase s s.flasher.state.after) else s

/-- FLASHER_TICK (R115, R117). -/
def execFlasherTick (dt : Time) (s : State) : Result :=
  live dt s fun s =>
    match s.flasher.tick with
    | some t => if t ≤ s.now ∧ s.flasher.state ≠ .idle then tickFlasher s t else s
    | none => s

end Sys2Proof.Machine
end

