-- ==== Sys2Proof/Machine/Gauges.lean ====
section
/-! DEFINITION. The gauge drive: curves and targets (R144 to R146), gauge updates and zeroing (R143, R147, R148), the fan ramp
(R152 to R154), the supply value they read (R138), and the outputs of the drivers. -/

namespace Sys2Proof.Machine

/-- The supply value in 10 mV units, as a block reads it (R138). -/
def supplyValue (t : TableStore) (average0 : Option Nat) : TableStore × Nat :=
  match average0 with
  | some a => (t, 2 * a)
  | none => t.param .gaugeReference

/-- The average of S0, which gives the supply value (R138). -/
def Sampler.average0 (m : Sampler) : Option Nat := (m.descriptors[(0 : Fin 16)]).average

/-- Step 3 of R146: the segments from point `(x0, y0)` on, for a reading above it. -/
def segments (x x0 y0 : Nat) : List (Nat × Nat) → Int
  | [] => y0
  | (x1, y1) :: rest =>
    if x1 ≤ x0 then y0
    else if x < x1 then (y0 : Int) + (((x : Int) - x0) * ((y1 : Int) - y0)).tdiv ((x1 : Int) - x0)
    else segments x x1 y1 rest

/-- The deflection a curve gives for a reading (R146), taken as 0 to 1000. -/
def Curve.eval (c : Curve) (x : Nat) : Nat :=
  match c.points with
  | [] => 0
  | (x0, y0) :: rest =>
    let last := rest.getLastD (x0, y0)
    if x ≤ x0 then y0
    else if last.1 ≤ x then last.2
    else clampTo 0 1000 (segments x x0 y0 rest).toNat

/-- The recomputation of one gauge's target at a hand-over (R144, R12). -/
def recompute (origin : GaugeSource) (reading : Nat) (p : TableStore × GaugeDrive) (g : Fin 4) : TableStore × GaugeDrive :=
  let r := p.1.gauge g
  match r.2 with
  | none => (r.1, p.2)
  | some e =>
    if e.source = origin then
      let c := r.1.curve e.curve
      (c.1, match c.2 with
        | some k => { p.2 with gauges := upd p.2.gauges g fun rec => { rec with target := k.eval reading } }
        | none => p.2)
    else (r.1, p.2)

/-- A reading handed to the gauge drive (R144). -/
def handReading (s : State) (origin : GaugeSource) (reading : Nat) : State :=
  let r := (List.finRange 4).foldl (recompute origin reading) (s.tables, s.gauges)
  { s with tables := r.1, gauges := r.2 }

/-- Zeroing of one gauge (R143). -/
def GaugeRecord.zeroed (r : GaugeRecord) : GaugeRecord := { r with deflection := 0, duty := 0, undersupplied := false, held := false }

/-- A zeroing update of all five records (R143). -/
def GaugeDrive.zeroed (d : GaugeDrive) : GaugeDrive :=
  { d with
    gauges := (List.finRange 4).foldl (fun v g => upd v g GaugeRecord.zeroed) d.gauges
    fan := ⟨0, 0, false, false⟩ }

/-- The stale flag of a gauge's source; TACH is never stale (R147). -/
def Sampler.staleOf (m : Sampler) : GaugeSource → Bool
  | .descriptor d => (m.descriptors[d]).stale
  | .tach => false

/-- A timer update of one gauge with IGNITION set (R147, R148). -/
def updateGauge (m : Sampler) (p : TableStore × GaugeDrive) (g : Fin 4) : TableStore × GaugeDrive :=
  let r := p.1.gauge g
  let rec0 := p.2.gauges[g]
  match r.2 with
  | none => (r.1, p.2)
  | some e =>
    if e.kind = .off then
      (r.1, { p.2 with gauges := upd p.2.gauges g fun _ => ⟨rec0.target, 0, 0, false, false, false⟩ })
    else
      let vs := supplyValue r.1 m.average0
      if vs.2 < 600 then
        (vs.1, { p.2 with gauges := upd p.2.gauges g fun _ => { rec0 with stale := m.staleOf e.source, held := true } })
      else
        let vref := vs.1.param .gaugeReference
        let h := approach rec0.deflection rec0.target e.slew
        let d := gaugeDuty e.kind h vs.2 vref.2
        (vref.1, { p.2 with gauges := upd p.2.gauges g fun _ => ⟨rec0.target, h, d.1, d.2, m.staleOf e.source, false⟩ })

/-- A ramp step of the fan with IGNITION set (R154). -/
def rampFan (m : Sampler) (shed : Bool) (request : Nat) (p : TableStore × GaugeDrive) : TableStore × GaugeDrive :=
  let r := p.1.fan
  match r.2 with
  | none => (r.1, p.2)
  | some e =>
    if e.on then
      let vs := supplyValue r.1 m.average0
      if vs.2 < 600 then (vs.1, { p.2 with fan := { p.2.fan with held := true } })
      else
        let cap := vs.1.param .shedCap
        let step := cap.1.param .fanRampStep
        let vfan := step.1.param .fanReference
        let f := approach p.2.fan.fraction (e.fraction (fanEffective true shed request cap.2)) step.2
        let d := fanDuty f vs.2 vfan.2
        (vfan.1, { p.2 with fan := ⟨f, d.1, d.2, false⟩ })
    else (r.1, { p.2 with fan := ⟨0, 0, false, false⟩ })

/-- The work of one expiry of the update timer (R143): four gauge updates and a ramp step, or a zeroing while IGNITION is clear. -/
def updateGauges (s : State) : State :=
  if s.ignition then
    let r := rampFan s.sampler s.shed s.engine.fanRequest.val ((List.finRange 4).foldl (updateGauge s.sampler) (s.tables, s.gauges))
    { s with tables := r.1, gauges := r.2 }
  else { s with gauges := s.gauges.zeroed }

/-- The on-fraction of a gauge's PWM driver: the record's duty, and off in a hold (R142, R173). -/
def gaugeDriver (s : State) (g : Fin 4) : Nat := if s.power = .running then (s.gauges.gauges[g]).duty else 0

/-- The on-fraction of the fan's PWM driver (R142, R173). -/
def fanDriver (s : State) : Nat := if s.power = .running then s.gauges.fan.duty else 0

/-- GAUGE_UPDATE (R143): the update timer expires; it expires every 100 ms from the reset. -/
def execGaugeUpdate (dt : Time) (s : State) : Result :=
  live dt s fun s =>
    if s.gauges.updateTimer ≤ s.now then
      updateGauges { s with gauges := { s.gauges with updateTimer := s.gauges.updateTimer + Config.ms100 } }
    else s

end Sys2Proof.Machine
end

