-- ==== Sys2Proof/Machine/Actions.lean ====
section
/-! DEFINITION. The action engine (chapter 5): the choice and the take, the walk and its operations, waits, and the group of changes a
walk hands to the other blocks. -/

namespace Sys2Proof.Machine

/-- The chain a walk carries: the channel it belongs to, and the slot it was resumed from (R73, R87). -/
structure Chain where
  channel : Fin 32
  slot : Option (Fin 4)
deriving DecidableEq, Repr

/-- Where a walk goes after an entry (R77, R86). -/
inductive Onward where
  | chainEnd
  | goto (i : Fin 256)
  | outside
deriving DecidableEq, Repr

/-- The target of a link or offset from entry `i`: 0 ends the chain, and a target outside 0 to 255 is a walk fault (R77, R86). -/
def onward (i : Fin 256) (offset : Int) : Onward :=
  if offset = 0 then .chainEnd
  else if 0 ≤ (i.val : Int) + offset ∧ (i.val : Int) + offset ≤ 255 then .goto (Fin.ofNat 256 ((i.val : Int) + offset).toNat)
  else .outside

/-- A slot freed: its channel and next entry stay as last set (R71). -/
def Slot.freed (k : Slot) : Slot := { k with state := .free, timer := none }

/-- The in-service mark of a channel rewritten (R63). -/
def State.setInService (s : State) (c : Fin 32) (b : Bool) : State := s.updChannel c fun x => { x with inService := b }

/-- A chain ends: the slot it holds is freed and its channel's in-service mark cleared (R71, R89). -/
def endChain (ch : Chain) (s : State) : State :=
  match ch.slot with
  | some k => (s.updSlot k Slot.freed).setInService ch.channel false
  | none => s

/-- A walk fault (R79). -/
def faultChain (ch : Chain) (s : State) : State :=
  endChain ch { s with engine := { s.engine with chainFault := s.engine.chainFault.bump } }

/-- A chain suspends in a slot (R87). -/
def suspendChain (ch : Chain) (k : Fin 4) (next : Option (Fin 256)) (wait : Nat) (s : State) : State :=
  (s.updSlot k fun _ => ⟨.suspended, ch.channel, next, some (s.now + wait * Config.ms100)⟩).setInService ch.channel true

/-- The lowest slot in a given state (R72, R87). -/
def lowestSlot (s : State) (x : SlotState) : Option (Fin 4) := (List.finRange 4).find? fun k => (s.engine.slots[k]).state == x

/-- The slot available to a walk's WAIT (R87). -/
def availableSlot (ch : Chain) (s : State) : Option (Fin 4) :=
  match ch.slot with
  | some k => some k
  | none => lowestSlot s .free

/-- A mode flag after a SET-MODE (R82). -/
def ModeChange.apply (c : ModeChange) (flag : Bool) : Bool :=
  match c with
  | .set => true
  | .clear => false
  | .toggle => !flag

/-- The fan request after a FAN (R85). -/
def FanChange.apply (c : FanChange) (level request : Fin 8) : Fin 8 :=
  match c with
  | .set => level
  | .up => if request = 7 then 7 else request + 1
  | .down => if request = 0 then 0 else request - 1

/-- What an entry other than a WAIT performs (R81 to R86); the tests, and the operation codes 8 to 15 (R184), perform nothing. -/
def perform (op : ActionOp) (s : State) : State :=
  match op with
  | .setMode m c => { s with engine := { s.engine with modes := upd s.engine.modes m c.apply } }
  | .setLoad l level ramp => s.updLoad l fun r => { r with requested := level, ramp := ramp }
  | .indicate r => { s with engine := { s.engine with indicate := r } }
  | .mask c m => s.updChannel c fun x => { x with masked := m }
  | .fan c level => { s with engine := { s.engine with fanRequest := c.apply level s.engine.fanRequest } }
  | .wait _ | .testMode .. | .testLevel .. | .unnamed => s

/-- Whether the condition of a TEST holds; a level of UNKNOWN is tested as OPEN (R86). -/
def testHolds (op : ActionOp) (s : State) : Option Int :=
  match op with
  | .testMode m sense offset => if s.mode m = sense then some offset else none
  | .testLevel c closed offset => if ((s.events.channels[c]).level == .isClosed) = closed then some offset else none
  | _ => none

/-- Where the walk goes after entry `i`, once it has been performed (R77, R86). -/
def nextOf (i : Fin 256) (e : ActionEntry) (s : State) : Onward :=
  match testHolds e.op s with
  | some offset => onward i offset
  | none => onward i e.link

/-- The walk from entry `i` with a budget of entries left to read (R76 to R80, R87, R88). -/
def walk (ch : Chain) : Nat → Fin 256 → State → State
  | 0, _, s => faultChain ch s
  | budget + 1, i, s =>
    let r := s.tables.action i
    let s := s.withTables r.1
    match r.2 with
    | none => endChain ch s
    | some e =>
      match e.op with
      | .wait time =>
        match availableSlot ch s with
        | some k =>
          match onward i e.link with
          | .chainEnd => suspendChain ch k none time s
          | .goto j => suspendChain ch k (some j) time s
          | .outside => faultChain ch s
        | none =>
          let s := { s with engine := { s.engine with slotFull := s.engine.slotFull.bump } }
          match onward i e.link with
          | .chainEnd => endChain ch s
          | .goto j => walk ch budget j s
          | .outside => faultChain ch s
      | op =>
        let s := perform op s
        match nextOf i e s with
        | .chainEnd => endChain ch s
        | .goto j => walk ch budget j s
        | .outside => faultChain ch s

/-- Whether a walk's group changes any load request or ramp flag, any of M0 to M2, or the indicate request (R94). -/
def groupResolves (before after : State) : Bool :=
  ((List.finRange 32).any fun l =>
    decide ((before.lamps.loads[l]).requested ≠ (after.lamps.loads[l]).requested) || ((before.lamps.loads[l]).ramp != (after.lamps.loads[l]).ramp))
  || before.mode 0 != after.mode 0 || before.mode 1 != after.mode 1 || before.mode 2 != after.mode 2
  || before.engine.indicate != after.engine.indicate

/-- A walk's group of changes reaches the other blocks (R76): the zeroing update when it clears IGNITION (R143), the flasher, and one
resolution of all loads (R94, R120). -/
def commitGroup (before s : State) : State :=
  let z := if before.ignition && !s.ignition then { s with gauges := s.gauges.zeroed } else s
  let f := settleFlasher z
  if groupResolves before s || f.flasher.state != s.flasher.state then resolveAll f else f

/-- A walk of at most 32 entries, from its start to its end or suspension (R78), with the choice its end calls for (R72). -/
def runWalk (ch : Chain) (i : Fin 256) (s : State) : State := (commitGroup s (walk ch 32 i s)).callChoice

/-- The suspended chain of a RESTART channel cancelled (R74). -/
def cancelChain (s : State) (c : Fin 32) : State :=
  ((List.finRange 4).foldl
    (fun s k => if (s.engine.slots[k]).state ≠ .free ∧ (s.engine.slots[k]).channel = c then s.updSlot k Slot.freed else s) s).setInService
    c false

/-- The head for an edge (R67). -/
def EventEntry.head (e : EventEntry) : Edge → Option (Fin 256)
  | .closing => e.closingHead
  | .opening => e.openingHead

/-- A channel taken for an edge (R73). -/
def takeChannel (s : State) (c : Fin 32) (e : EventEntry) (edge : Edge) : State :=
  let inService := (s.events.channels[c]).inService
  let s := s.updChannel c fun x => { x with pending := none }
  let s := if inService then cancelChain s c else s
  match e.head edge with
  | some i => runWalk ⟨c, none⟩ i s
  | none => s.callChoice

/-- The choice at which no slot is DUE (R64, R72): the EVENT entries of pending unmasked channels are read from the first of the list on,
and the first eligible channel is taken. -/
def chooseFrom : List (Fin 32) → State → State
  | [], s => { s with events := { s.events with choiceMade := true } }
  | c :: rest, s =>
    let x := s.events.channels[c]
    match x.pending with
    | none => chooseFrom rest s
    | some edge =>
      if x.masked then chooseFrom rest s
      else
        let r := s.tables.event c
        let s := s.withTables r.1
        match r.2 with
        | none => chooseFrom rest (s.updChannel c fun x => { x with pending := none })
        | some e => if e.enable && (!x.inService || e.policy == .restart) then takeChannel s c e edge else chooseFrom rest s

/-- The chain of a DUE slot resumed (R89). -/
def resumeSlot (s : State) (k : Fin 4) : State :=
  let slot := s.engine.slots[k]
  match slot.next with
  | none => (endChain ⟨slot.channel, some k⟩ s).callChoice
  | some i => runWalk ⟨slot.channel, some k⟩ i s

/-- ACTION_TAKE (R72, R73): a choice at which a slot is DUE takes no channel. -/
def execActionTake (dt : Time) (s : State) : Result :=
  live dt s fun s =>
    if (lowestSlot s .due).isSome || s.events.choiceMade then s else chooseFrom (List.finRange 32).reverse s

/-- CHAIN_RESUME (R72, R89): the lowest DUE slot. -/
def execChainResume (dt : Time) (s : State) : Result :=
  live dt s fun s =>
    match lowestSlot s .due with
    | some k => resumeSlot s k
    | none => s

/-- Whether a slot's wait has come to its end (R89). -/
def Slot.waitOver (k : Slot) (now : Time) : Bool := k.state == .suspended && due k.timer now

/-- A slot at the expiry of its wait timer: DUE, its timer stopped; a slot whose wait is not over stands (R89). -/
def Slot.expire (now : Time) (k : Slot) : Slot := if k.waitOver now then { k with state := .due, timer := none } else k

/-- WAIT_EXPIRY (R89): every wait that has come to its end with the one named becomes DUE with it. -/
def execWaitExpiry (dt : Time) (slot : Fin 4) (s : State) : Result :=
  live dt s fun s =>
    if (s.engine.slots[slot]).waitOver s.now then
      ({ s with engine := { s.engine with slots := s.engine.slots.map (Slot.expire s.now) } } : State).callChoice
    else s

end Sys2Proof.Machine
end

