-- ==== Sys2Proof/Machine/Ignition.lean ====
section
/-! DEFINITION. The ignition sense input and its debounce (R57). -/

namespace Sys2Proof.Machine

/-- IGNITION_INPUT_CHANGE (R57). The pin moves in a hold too; the debounce timer is started only while the blocks run. -/
def execIgnitionInputChange (dt : Time) (on : Bool) (s : State) : Result :=
  let s := s.elapse dt
  .next
    (if s.events.rawIgnition = on then s
    else
      { s with
        events :=
          { s.events with
            rawIgnition := on
            debounceTimer := if s.power = .running then some (s.now + Config.ms20) else s.events.debounceTimer } })

/-- The debounce timer expires: a new or first level is taken and reported to E31 (R57). -/
def expireDebounce (s : State) : State :=
  let s := { s with events := { s.events with debounceTimer := none } }
  if s.events.debounced = some s.events.rawIgnition then s
  else reportLevel { s with events := { s.events with debounced := some s.events.rawIgnition } } 31 s.events.rawIgnition

/-- IGNITION_DEBOUNCE_EXPIRY (R57). -/
def execIgnitionDebounceExpiry (dt : Time) (s : State) : Result :=
  live dt s fun s => if due s.events.debounceTimer s.now then expireDebounce s else s

end Sys2Proof.Machine
end

