-- ==== Sys2Proof/Machine/Sampling.lean ====
section
/-! DEFINITION. The sampler (chapter 8): samples, windows, thresholds, staleness, and the coil-pulse counter. -/

namespace Sys2Proof.Machine

/-- The moment a stale timer started now expires; a period of 0 leaves it stopped (R136). -/
def staleDeadline (now : Time) (period : Nat) : Option Time := if period = 0 then none else some (now + period * Config.ms500)

/-- Steps 1 to 3 of R132: a sample joins the window, clears stale and restarts the stale timer. -/
def DescriptorRecord.accept (r : DescriptorRecord) (e : DescriptorEntry) (code : Nat) (now : Time) : DescriptorRecord :=
  { r with
    window := if r.held = 0 then some e.window else r.window
    sum := r.sum + code
    held := r.held + 1
    stale := false
    staleTimer := staleDeadline now e.stale }

/-- The record after its window of `n` samples completes (R133, R134). -/
def DescriptorRecord.complete (r : DescriptorRecord) (e : DescriptorEntry) (n : Nat) : DescriptorRecord :=
  { r with
    held := 0
    sum := 0
    window := none
    average := some (averageOf r.sum n)
    threshold := thresholdAfter e r.threshold (averageOf r.sum n) }

/-- The results of a completed window go out: the threshold report when the state changed, and the average to the gauges
(R133, R135, R144). -/
def announceWindow (s : State) (d : Fin 16) (e : DescriptorEntry) (before after : ThresholdState) (average : Nat) : State :=
  handReading (if after = before then s else reportTo s e.channel (after == .active)) (.descriptor d) average

/-- One sample presented to a descriptor (R132, R133). -/
def presentSample (s : State) (d : Fin 16) (code : Nat) : State :=
  let r := s.tables.descriptor d
  let s := s.withTables r.1
  match r.2 with
  | none => s
  | some e =>
    let a := (s.sampler.descriptors[d]).accept e code s.now
    match a.window with
    | some n =>
      if a.held = n then
        let c := a.complete e n
        announceWindow (s.updDescriptor d fun _ => c) d e a.threshold c.threshold (averageOf a.sum n)
      else s.updDescriptor d fun _ => a
    | none => s.updDescriptor d fun _ => a

/-- A stale timer expires: stale is set and the window in progress is discarded (R136). -/
def DescriptorRecord.expire (r : DescriptorRecord) : DescriptorRecord :=
  { r with held := 0, sum := 0, window := none, stale := true, staleTimer := none }

/-- CONVERSION (R128): each code is presented to its descriptor; the timer expires every 20 ms from the reset. R128 gives the four
presentations no order; that they are taken from S0 to S3 is the model's choice (log 31). -/
def execConversion (dt : Time) (c0 c1 c2 c3 : BitVec 10) (s : State) : Result :=
  live dt s fun s =>
    if s.sampler.conversionTimer ≤ s.now then
      let s := { s with sampler := { s.sampler with conversionTimer := s.sampler.conversionTimer + Config.ms20 } }
      presentSample (presentSample (presentSample (presentSample s 0 c0.toNat) 1 c1.toNat) 2 c2.toNat) 3 c3.toNat
    else s

/-- STALE_EXPIRY (R136). -/
def execStaleExpiry (dt : Time) (d : Fin 16) (s : State) : Result :=
  live dt s fun s => if due (s.sampler.descriptors[d]).staleTimer s.now then s.updDescriptor d DescriptorRecord.expire else s

/-- Whether a pulse is counted: at least 1 ms after the last counted pulse (R139). -/
def Sampler.counts (m : Sampler) (now : Time) : Bool :=
  match m.lastPulse with
  | some t => decide (t + Config.ms1 ≤ now)
  | none => true

/-- COIL_PULSE (R139). -/
def execCoilPulse (dt : Time) (s : State) : Result :=
  live dt s fun s =>
    if s.sampler.counts s.now then
      { s with sampler := { s.sampler with gateCount := min 1023 (s.sampler.gateCount + 1), lastPulse := some s.now } }
    else s

/-- The tach value of a gate (R140). -/
def tachOf (pulses cylinders : Nat) : Nat := min 1023 (pulses * 30 / cylinders)

/-- GATE_EXPIRY (R140): the tach value goes to the gauges of source TACH; the gate timer expires every 500 ms from the reset. -/
def execGateExpiry (dt : Time) (s : State) : Result :=
  live dt s fun s =>
    if s.sampler.gateTimer ≤ s.now then
      let c := s.tables.param .cylinders
      let v := tachOf s.sampler.gateCount c.2
      handReading
        { s with
          tables := c.1
          sampler := { s.sampler with tach := some v, gateCount := 0, gateTimer := s.sampler.gateTimer + Config.ms500 } }
        .tach v
    else s

end Sys2Proof.Machine
end

