-- ==== Sys2Proof/Machine/Routing.lean ====
section
/-! DEFINITION. The route engine (chapter 3): the walk of a routed frame, its actions, watched sources, and the transit copying of a
port (R24). -/

namespace Sys2Proof.Machine

/-- How the reading of a route chain ends (R41 to R43). -/
inductive Matching where
  | matched (e : RouteEntry)
  | miss
  | failing
deriving DecidableEq, Repr

/-- The ROUTE entries read one after another from index `i`, at most `budget` of them (R41, R42, R43). -/
def findRoute (kind : Fin 16) : Nat → Int → TableStore → TableStore × Matching
  | 0, _, t => (t, .miss)
  | budget + 1, i, t =>
    if 0 ≤ i ∧ i ≤ 127 then
      let r := t.route (Fin.ofNat 128 i.toNat)
      match r.2 with
      | none => (r.1, .failing)
      | some e =>
        if e.kind = kind then (r.1, .matched e)
        else if e.link = 0 then (r.1, .miss)
        else findRoute kind budget (i + e.link) r.1
    else (t, .miss)

/-- ROUTE-MISS counts (R53). -/
def State.countMiss (s : State) : State := { s with routes := { s.routes with routeMiss := s.routes.routeMiss.bump } }

/-- REPORT-ERROR counts (R53). -/
def State.countReportError (s : State) : State := { s with routes := { s.routes with reportError := s.routes.reportError.bump } }

/-- Whether a frame's arrival port is its source's home port (R39). -/
def HomePort.admits (h : HomePort) (p : PortId) : Bool :=
  match h, p with
  | .either, _ => true
  | .front, .front => true
  | .rear, .rear => true
  | .front, .rear => false
  | .rear, .front => false

/-- The moment a watch timer started now expires; a period of 0 leaves it stopped (R35, R40). -/
def watchDeadline (now : Time) (period : Nat) : Option Time := if period = 0 then none else some (now + period * Config.ms500)

/-- A frame heard from its source (R40). -/
def hear (s : State) (src : Fin 64) (e : DirectoryEntry) : State :=
  let before := (s.routes.sources[src]).heard
  let s := s.updSource src fun _ => ⟨.heard, watchDeadline s.now e.watch⟩
  if before = .silent then reportTo s e.silence false else s

/-- A SWITCH entry (R44): contact bits within the payload and channels within E31 are reported. -/
def routeSwitch (s : State) (e : RouteEntry) (payload : List Byte) : State :=
  (List.range e.switchCount).foldl
    (fun s i =>
      if h : e.base + i < 32 then
        if i / 8 < payload.length then reportLevel s ⟨e.base + i, h⟩ ((payload.getD (i / 8) 0#8).getLsbD (i % 8)) else s
      else s)
    s

/-- A SENDER entry (R45): whole readings within the payload reach descriptors S4 to S15, none above 1023. R45 hands the samples of a frame over
together and gives them no order; that they are taken in rising j is the model's choice (log 30). -/
def routeSender (s : State) (e : RouteEntry) (payload : List Byte) : State :=
  (List.range e.senderCount).foldl
    (fun s j =>
      if h : e.base + j < 16 then
        if 4 ≤ e.base + j ∧ 2 * j + 2 ≤ payload.length then
          presentSample s ⟨e.base + j, h⟩ (min 1023 (byteAt payload (2 * j) * 256 + byteAt payload (2 * j + 1)))
        else s
      else s)
    s

/-- The pod record that matches a report's source, the POD entries read in pod-table order; a failing one is passed over
(R46, R12). -/
def matchPod (src : LoomAddr) : List (Fin 12) → TableStore → TableStore × Option (Fin 12)
  | [], t => (t, none)
  | P :: rest, t =>
    let r := t.pod P
    match r.2 with
    | none => matchPod src rest r.1
    | some e => if e.address = src ∧ e.address ≠ 0 then (r.1, some P) else matchPod src rest r.1

/-- A REPORT entry (R46, log 19). -/
def routeReport (s : State) (f : Frame) : State :=
  let m := matchPod f.src (List.finRange 12) s.tables
  let s := s.withTables m.1
  match m.2 with
  | some P => if f.payload.length = 9 then takeReport s P f.payload else s.countReportError
  | none => s.countReportError

/-- A forwarded copy offered to the other port (R47). -/
def forward (s : State) (p : PortId) (e : RouteEntry) (f : Frame) : State :=
  s.setPort p.other ((s.port p.other).offerCopy { f with dest := if e.rewrite = 0 then f.dest else e.rewrite })

/-- The matching entry's action, and the copy its also-forward flag asks for (R44 to R48). -/
def performRoute (s : State) (p : PortId) (e : RouteEntry) (f : Frame) : State :=
  let also (s : State) : State := if e.alsoForward then forward s p e f else s
  match e.action with
  | .switch => also (routeSwitch s e f.payload)
  | .sender => also (routeSender s e f.payload)
  | .report => also (routeReport s f)
  | .forward => forward s p e f
  | .drop => s

/-- The chain of a heard frame walked and performed (R41 to R48). -/
def walkRoute (s : State) (p : PortId) (e : DirectoryEntry) (f : Frame) : State :=
  match e.head with
  | none => s.countMiss
  | some i =>
    let m := findRoute f.kind 8 i.val s.tables
    let s := s.withTables m.1
    match m.2 with
    | .matched r => performRoute s p r f
    | .miss => s.countMiss
    | .failing => s

/-- The route walk of a frame, up to the release of its pool (R37 to R48). -/
def routeFrame (s : State) (p : PortId) (f : Frame) : State :=
  let r := s.tables.directory f.src
  let s := s.withTables r.1
  match r.2 with
  | none => s
  | some e => if e.home.admits p then walkRoute (hear s f.src e) p e f else s.countMiss

/-- The pool a port's consumer works on released (R23). -/
def State.releasePool (s : State) (p : PortId) : State := s.setPort p (s.port p).release

/-- ROUTE_WALK (R37). -/
def execRouteWalk (dt : Time) (p : PortId) (s : State) : Result :=
  live dt s fun s =>
    match (s.port p).servingOf .routed with
    | some f => (routeFrame s p f).releasePool p
    | none => s

/-- The transit flag for frames that arrived on a port (R24). -/
def transitFlag : PortId → Param
  | .front => .transitFrontRear
  | .rear => .transitRearFront

/-- TRANSIT_COPY (R24). -/
def execTransitCopy (dt : Time) (p : PortId) (s : State) : Result :=
  live dt s fun s =>
    match (s.port p).servingOf .transit with
    | some f =>
      let flag := s.tables.param (transitFlag p)
      let s := s.withTables flag.1
      (if flag.2 = 0 then s else s.setPort p.other ((s.port p.other).offerCopy f)).releasePool p
    | none => s

/-- The expiry of a watch timer, its slot read (R49). -/
def expireWatch (s : State) (src : Fin 64) : State :=
  let r := s.tables.directory src
  let s := (s.withTables r.1).updSource src fun x => { x with watch := none }
  let fall (s : State) : State := s.updSource src fun x => { x with heard := .silent }
  match r.2 with
  | none => fall s
  | some e => if e.watch = 0 then s else reportTo (fall s) e.silence true

/-- WATCH_EXPIRY (R49). -/
def execWatchExpiry (dt : Time) (src : Fin 64) (s : State) : Result :=
  live dt s fun s => if due (s.routes.sources[src]).watch s.now then expireWatch s src else s

end Sys2Proof.Machine
end

