-- ==== Sys2Proof/Machine/Resets.lean ====
section
/-! DEFINITION. The resets (R31, R32, R36, R55, R70, R93, R100, R114, R131, R139, R142, R151, R158): what every block is set to at a
power-on, a brown-out and a service RESTART. -/

namespace Sys2Proof.Machine

/-- A counter at a reset: kept by a RESTART, set to 0 by a power-on and a brown-out (R31, R164). -/
def keepCount (keep : Bool) (c : Counter) : Counter := if keep then c else 0

/-- The counters of a port at a reset (R31). -/
def keepPortCounts (keep : Bool) (c : PortCounters) : PortCounters := if keep then c else .zero

/-- One slot read at a reset: its watch timer is started where the slot watches (R36). -/
def startWatch (now : Time) (p : TableStore × Vector SourceRecord 64) (a : Fin 64) : TableStore × Vector SourceRecord 64 :=
  let r := p.1.directory a
  (r.1, match r.2 with
    | some e => upd p.2 a fun x => { x with watch := watchDeadline now e.watch }
    | none => p.2)

/-- One EVENT entry read at a reset: the channel starts with its initial mask, masked when the read fails (R55, R12). -/
def setUpChannel (p : TableStore × Vector Channel 32) (c : Fin 32) : TableStore × Vector Channel 32 :=
  let r := p.1.event c
  (r.1, upd p.2 c fun _ =>
    .afterReset (match r.2 with
      | some e => e.initialMask
      | none => true))

/-- One DESCRIPTOR entry read at a reset: its stale timer is started (R131). -/
def startStale (now : Time) (p : TableStore × Vector DescriptorRecord 16) (d : Fin 16) : TableStore × Vector DescriptorRecord 16 :=
  let r := p.1.descriptor d
  (r.1, match r.2 with
    | some e => upd p.2 d fun x => { x with staleTimer := staleDeadline now e.stale }
    | none => p.2)

/-- The records that take fixed values at a reset, all read-dependent timers and masks still to set. -/
def clearBlocks (keep : Bool) (s : State) : State :=
  { s with
    tables := { s.tables with parityCount := keepCount keep s.tables.parityCount }
    front := .afterReset s.now s.front.byteOnWire (keepPortCounts keep s.front.counters)
    rear := .afterReset s.now s.rear.byteOnWire (keepPortCounts keep s.rear.counters)
    routes := ⟨Vector.replicate 64 .afterReset, keepCount keep s.routes.routeMiss, keepCount keep s.routes.reportError⟩
    events := ⟨Vector.replicate 32 (.afterReset true), s.events.rawIgnition, none, some (s.now + Config.ms20), keepCount keep s.events.edgeLost, false⟩
    engine := .afterReset (keepCount keep s.engine.chainFault) (keepCount keep s.engine.slotFull)
    lamps := ⟨Vector.replicate 32 .afterReset, Vector.replicate 12 .afterReset, s.now + Config.ms100⟩
    flasher := .afterReset
    sampler := .afterReset s.now
    gauges := .afterReset s.now
    service := .idle }

/-- The route engine's reads at a reset (R36). -/
def resetRoutes (s : State) : State :=
  let r := (List.finRange 64).foldl (startWatch s.now) (s.tables, s.routes.sources)
  { s with tables := r.1, routes := { s.routes with sources := r.2 } }

/-- The event block's reads at a reset (R55). -/
def resetEvents (s : State) : State :=
  let r := (List.finRange 32).foldl setUpChannel (s.tables, s.events.channels)
  { s with tables := r.1, events := { s.events with channels := r.2 } }

/-- The sampler's reads at a reset (R131). -/
def resetSampler (s : State) : State :=
  let r := (List.finRange 16).foldl (startStale s.now) (s.tables, s.sampler.descriptors)
  { s with tables := r.1, sampler := { s.sampler with descriptors := r.2 } }

/-- The pods' timers started at a reset, and the one resolution of all loads (R100, R93). -/
def resetLamps (s : State) : State :=
  resolveAll ((List.finRange 12).foldl (fun s P => startReport (startRefresh s P) P) s)

/-- Every block set up as its chapter states: with `keep` for a service RESTART, without it for a power-on or a brown-out. -/
def resetBlocks (keep : Bool) (s : State) : State := resetLamps (resetSampler (resetEvents (resetRoutes (clearBlocks keep s))))

end Sys2Proof.Machine
end

