-- ==== Sys2Proof/Machine/Line.lean ====
section
/-! DEFINITION. The line of a port (R15, R16): reception up to the judgement of a frame (R19 to R22), and transmission (R25, R26). -/

namespace Sys2Proof.Machine

/-- A byte begins on the wire of a port that is not transmitting (R16). -/
def Port.byteBegins (q : Port) (now : Time) : Port :=
  match q.line with
  | .idle =>
    if q.quietFor now (2 * Config.byteTime) then { q with line := .receiving, reception := .empty, byteOnWire := true }
    else { q with line := .skipping, byteOnWire := true }
  | .receiving | .skipping => { q with byteOnWire := true }
  | .transmitting => q

/-- A byte ends on the wire of a port that is not transmitting: the quiet timer restarts (R15, R16). -/
def Port.byteEnds (q : Port) (now : Time) (value : Byte) (stopFound : Bool) : Port :=
  match q.line with
  | .receiving => { q with reception := q.reception.add value stopFound, byteOnWire := false, quietFrom := now }
  | .idle | .skipping => { q with byteOnWire := false, quietFrom := now }
  | .transmitting => q

/-- A byte begins or ends on a port's wire while the blocks run (R16). -/
def Port.byteOf (q : Port) (now : Time) : ByteEdge → Port
  | .begins => q.byteBegins now
  | .ends value stopFound => q.byteEnds now value stopFound

/-- Whether a byte is on the wire after an edge. -/
def onWireAfter : ByteEdge → Bool
  | .begins => true
  | .ends _ _ => false

/-- BYTE_RECEIVED (R16). No byte is received in a hold (R173); the wire itself goes on (log 18). -/
def execByteReceived (dt : Time) (p : PortId) (edge : ByteEdge) (s : State) : Result :=
  let s := s.elapse dt
  .next
    (if s.power = .running then s.setPort p ((s.port p).byteOf s.now edge)
    else s.setPort p { s.port p with byteOnWire := onWireAfter edge })

/-- A good frame is classified and placed, and a free port hands it over at once (R21, R22, R23). -/
def acceptFrame (s : State) (p : PortId) (f : Frame) : State :=
  let g1 := s.tables.param .group1
  let g2 := g1.1.param .group2
  (s.withTables g2.1).setPort p ((s.port p).place ⟨f, classify s.hubAddress g1.2 g2.2 f⟩).handOver

/-- A complete frame judged (R19, R20). -/
def judgeFrame (s : State) (p : PortId) (r : Reception) : State :=
  let q := s.port p
  if r.formatError then s.setPort p { q with counters := { q.counters with rxFormat := q.counters.rxFormat.bump } }
  else if r.checkPasses then acceptFrame s p r.frame
  else s.setPort p { q with counters := { q.counters with rxCheck := q.counters.rxCheck.bump } }

/-- FRAME_END (R16, R19). -/
def execFrameEnd (dt : Time) (p : PortId) (s : State) : Result :=
  live dt s fun s =>
    let q := s.port p
    if q.line = .receiving ∧ q.quietFor s.now (2 * Config.byteTime) then
      judgeFrame (s.setPort p { q with line := .idle, reception := .empty }) p q.reception
    else s

/-- SKIP_END (R16). -/
def execSkipEnd (dt : Time) (p : PortId) (s : State) : Result :=
  live dt s fun s =>
    let q := s.port p
    if q.line = .skipping ∧ q.quietFor s.now (2 * Config.byteTime) then s.setPort p { q with line := .idle } else s

/-- TRANSMIT_START (R16, R25). -/
def execTransmitStart (dt : Time) (p : PortId) (s : State) : Result :=
  live dt s fun s =>
    let q := s.port p
    if q.line = .idle ∧ q.queue ≠ [] ∧ q.quietFor s.now (3 * Config.byteTime) then
      s.setPort p { q with line := .transmitting, queue := startHead q.queue, sentBytes := 0 }
    else s

/-- SENT_BYTE_READ_BACK_EQUAL (R16): a byte other than the last of the head frame. -/
def execSentByteReadBackEqual (dt : Time) (p : PortId) (s : State) : Result :=
  live dt s fun s =>
    let q := s.port p
    match q.line, q.queue with
    | .transmitting, e :: _ =>
      if q.sentBytes + 1 < e.frame.bytes.length then s.setPort p { q with sentBytes := q.sentBytes + 1, quietFrom := s.now } else s
    | _, _ => s

/-- Whether a port's refill is owed, rewritten (log 29). -/
def State.setRefillOwed (s : State) (p : PortId) (b : Bool) : State := s.setPort p { s.port p with refillOwed := b }

/-- The refill of a freed entry, whether it follows at once or was owed (R29). -/
def settleRefill (s : State) (p : PortId) : State := refill (s.setRefillOwed p false) p

/-- The refill a freeing taken alone left to make (R29, log 29). -/
def owedRefill (s : State) (p : PortId) : State := if (s.port p).refillOwed then settleRefill s p else s

/-- The head entry `e` has left a queue, its refill made or owed: the RESTART waiting for its reply is made (R171, log 16). -/
def afterFreeing (e : QueueEntry) (s : State) : State := if e.restartReply then resetBlocks true s else s

/-- The head frame sent whole (R16, R25, log 5), with what becomes of its refill. -/
def sendHead (s : State) (p : PortId) (refilled : State → State) : State :=
  let q := s.port p
  match q.line, q.queue with
  | .transmitting, e :: rest =>
    afterFreeing e
      (refilled
        (s.setPort p
          { q with
            line := .idle, quietFrom := s.now, queue := rest, sentBytes := 0
            counters := { q.counters with txSent := q.counters.txSent.bump } }))
  | _, _ => s

/-- FRAME_SENT (R16, R25, R29). -/
def execFrameSent (dt : Time) (part : Freeing) (s : State) : Result :=
  live dt s fun s =>
    match part with
    | .withRefill p => sendHead s p fun s => settleRefill s p
    | .alone p => sendHead s p fun s => s.setRefillOwed p true
    | .refill p => owedRefill s p

/-- The pod record of an abandoned LAMPCMD is marked dirty (R26). -/
def markDirty (s : State) (pod : Option (Fin 12)) : State :=
  match pod with
  | some P => s.updPod P fun r => { r with dirty := true }
  | none => s

/-- The head frame abandoned (R16, R26), with what becomes of its refill. -/
def abandonHead (s : State) (p : PortId) (refilled : State → State) : State :=
  let q := s.port p
  match q.line, q.queue with
  | .transmitting, e :: rest =>
    afterFreeing e
      (refilled
        (markDirty
          (s.setPort p
            { q with
              line := .skipping, quietFrom := s.now, queue := rest, sentBytes := 0
              counters := { q.counters with txCollide := q.counters.txCollide.bump } })
          e.pod))
  | _, _ => s

/-- COLLISION (R16, R26, R29). -/
def execCollision (dt : Time) (part : Freeing) (s : State) : Result :=
  live dt s fun s =>
    match part with
    | .withRefill p => abandonHead s p fun s => settleRefill s p
    | .alone p => abandonHead s p fun s => s.setRefillOwed p true
    | .refill p => owedRefill s p

end Sys2Proof.Machine
end

