-- ==== Sys2Proof/Machine/Requests.lean ====
section
/-! DEFINITION. Service requests: what a payload asks for (R159, R182), the records and counters a reply carries (R163, R165, R182), and the
taking of a request (R159, R160). -/

namespace Sys2Proof.Machine

/-- A service request whose code and length are allowed, its operands as sent (R182). -/
inductive Request where
  | identify
  | readTable (area : Byte) (index count : Nat)
  | writeTable (area : Byte) (index : Nat) (words : List Word16)
  | readState (object index : Nat)
  | readCounters (group clear : Nat)
  | clearLatch (load : Nat)
  | store
  | loadLimp (variant : Nat)
  | restart
deriving DecidableEq, Repr

/-- Two bytes as a number, high byte first. -/
def pair (hi lo : Byte) : Nat := hi.toNat * 256 + lo.toNat

/-- The words a list of bytes holds, high byte first; `none` for an odd count. -/
def wordsOf : List Byte → Option (List Word16)
  | [] => some []
  | [_] => none
  | hi :: lo :: rest => (wordsOf rest).map (BitVec.ofNat 16 (pair hi lo) :: ·)

/-- The request of a code and its operand bytes, when the code names one and allows that many (R159, R182). -/
def decodeOperands (code : Nat) (ops : List Byte) : Option Request :=
  match code, ops with
  | 1, [] => some .identify
  | 2, [area, hi, lo, count] => some (.readTable area (pair hi lo) count.toNat)
  | 3, area :: hi :: lo :: data =>
    match wordsOf data with
    | some ws => if 1 ≤ ws.length ∧ ws.length ≤ 6 then some (.writeTable area (pair hi lo) ws) else none
    | none => none
  | 4, [object, index] => some (.readState object.toNat index.toNat)
  | 5, [group, clear] => some (.readCounters group.toNat clear.toNat)
  | 6, [load] => some (.clearLatch load.toNat)
  | 7, [] => some .store
  | 8, [variant] => some (.loadLimp variant.toNat)
  | 9, [] => some .restart
  | _, _ => none

/-- The request a payload names, when its code names one and its length is one that request allows (test 1 of R159). -/
def decodeRequest : List Byte → Option Request
  | [] => none
  | code :: ops => decodeOperands code.toNat ops

/-- Status of a reply (R182). -/
inductive Status where
  | done
  | badRequest
  | badRange
  | notParked
  | busy
  | failed
deriving DecidableEq, Repr

/-- The status byte (R182). -/
def Status.code : Status → Nat
  | .done => 0
  | .badRequest => 1
  | .badRange => 2
  | .notParked => 3
  | .busy => 4
  | .failed => 5

/-- A SERVICE-REPLY (R160): to the requester, from the hub, the request's code byte, the status, then the data. -/
def replyFrame (s : State) (requester : LoomAddr) (code : Byte) (status : Status) (data : List Byte) : Frame :=
  ⟨requester, s.hubAddress, kindServiceReply, code :: BitVec.ofNat 8 status.code :: data⟩

/-- The code byte of a request: 0xFF for an empty payload (R159). -/
def requestCode (f : Frame) : Byte := f.payload.headD 0xFF#8

/-- The reply to a request built and offered to its arrival port's queue (R160, R27). -/
def answer (s : State) (p : PortId) (f : Frame) (status : Status) (data : List Byte) : State :=
  s.setPort p ((s.port p).offerReply (replyFrame s f.src (requestCode f) status data) false)

/-- A request taken (R159): in STORING and RESTARTING it is answered BUSY; otherwise it is judged further and performed. -/
def unlessBusy (s : State) (p : PortId) (f : Frame) (perform : State → State) : State :=
  if s.service = .idle then perform s else answer s p f .busy []

/-- The service request a port has handed over, with what it asks for. -/
def Port.request (q : Port) : Option (Frame × Option Request) := (q.servingOf .serviceRequest).map fun f => (f, decodeRequest f.payload)

/-! ## IDENTIFY -/

/-- The straps byte (R182). -/
def strapsByte (x : Straps) : Nat :=
  (match x.earth with
    | .positive => 0
    | .negative => 1) +
    (match x.limp with
    | .separate => 0
    | .combined => 2)

/-- The table source byte (R182). -/
def sourceByte : TableSource → Nat
  | .nv => 0
  | .limp => 1
  | .modified => 2

/-- The service state byte (R182). -/
def serviceByte : ServiceState → Nat
  | .idle => 0
  | .storing .. => 1
  | .restarting => 2

/-- The data of an IDENTIFY reply (R161, R182). -/
def identifyData (s : State) : List Byte :=
  twoBytes Config.partCode ++ oneByte Config.revision ++ oneByte s.hubAddress.val ++ oneByte (strapsByte s.straps) ++
    oneByte (sourceByte s.tables.source) ++ oneByte s.tables.tableFault.toNat ++ twoBytes s.tables.marked.length ++ oneByte (serviceByte s.service)

/-- IDENTIFY (R161): answered in every state of the service engine. -/
def execIdentify (dt : Time) (p : PortId) (s : State) : Result :=
  live dt s fun s =>
    match (s.port p).request with
    | some (f, some .identify) => (answer s p f .done (identifyData s)).releasePool p
    | _ => s

/-! ## READ-TABLE and WRITE-TABLE -/

/-- The first address of a range of words, when the area exists and the range lies within it (R162, R166). -/
def rangeOf (area : Byte) (index count : Nat) : Option (Area × Nat) :=
  match Area.ofByte area with
  | some a => if index + count ≤ a.words then some (a, address a index) else none
  | none => none

/-- The parity flags of a READ-TABLE: bit k set when word k fails (R182). -/
def parityFlags (ws : List StoredWord) : Nat := ws.foldr (fun w n => w.fails.toNat + 2 * n) 0

/-- The data of a READ-TABLE reply (R162, R182). -/
def readTableData (t : TableStore) (a count : Nat) : List Byte :=
  let ws := (List.range' a count).map t.word
  oneByte (parityFlags ws) ++ ws.flatMap fun w => twoBytes w.data.toNat

/-- READ-TABLE judged on its range and performed (R162). -/
def readTable (s : State) (p : PortId) (f : Frame) (area : Byte) (index count : Nat) : State :=
  match rangeOf area index count with
  | some (_, a) => if 1 ≤ count ∧ count ≤ 6 then answer s p f .done (readTableData s.tables a count) else answer s p f .badRange []
  | none => answer s p f .badRange []

/-- READ_TABLE (R162). -/
def execReadTable (dt : Time) (p : PortId) (s : State) : Result :=
  live dt s fun s =>
    match (s.port p).request with
    | some (f, some (.readTable area index count)) => (unlessBusy s p f fun s => readTable s p f area index count).releasePool p
    | _ => s

/-- A channel whose enable reads off after a write of its enable word loses its pending edge (R68). -/
def dropDisabled (s : State) (c : Fin 32) : State :=
  if (s.tables.word (address .event (c.val * 2))).data.getLsbD 15 then s else s.updChannel c fun x => { x with pending := none }

/-- The channels whose enable word lies in a written range of EVENT indexes. -/
def channelsIn (index count : Nat) : List (Fin 32) := (List.finRange 32).filter fun c => decide (index ≤ c.val * 2) && decide (c.val * 2 < index + count)

/-- What a write of EVENT words does to the runtime (R68), and the choice it calls for (R72). -/
def eventsWritten (s : State) (cs : List (Fin 32)) : State := (cs.foldl dropDisabled s).callChoice

/-- An accepted WRITE-TABLE (R166): the words written as one event, MODIFIED, and what running blocks take from it (R68, R111). -/
def writeTable (s : State) (a : Area) (index : Nat) (ws : List Word16) : State :=
  let s := s.withTables { s.tables.writeWords (address a index) ws with source := .modified }
  match a with
  | .event => eventsWritten s (channelsIn index ws.length)
  | .load => resolveAll s
  | _ => s

/-- WRITE_TABLE (R166): refused NOT-PARKED while IGNITION is set, then judged on its range. -/
def execWriteTable (dt : Time) (p : PortId) (s : State) : Result :=
  live dt s fun s =>
    match (s.port p).request with
    | some (f, some (.writeTable area index ws)) =>
      (unlessBusy s p f fun s =>
        if s.ignition then answer s p f .notParked []
        else
          match rangeOf area index ws.length with
          | some (a, _) => answer (writeTable s a index ws) p f .done []
          | none => answer s p f .badRange []).releasePool p
    | _ => s

/-! ## READ-STATE -/

/-- A one-byte index or number, or 0xFF for NONE (R182). -/
def orNone1 (n : Option Nat) : List Byte := oneByte (n.getD 0xFF)

/-- A two-byte number, or 0xFFFF for NONE or END (R182). -/
def orNone2 (n : Option Nat) : List Byte := twoBytes (n.getD 0xFFFF)

/-- A flag byte (R182). -/
def flagByte (b : Bool) : List Byte := oneByte b.toNat

/-- Heard state byte (R35, R182). -/
def HeardState.code : HeardState → Nat
  | .unheard => 0
  | .heard => 1
  | .silent => 2

/-- Level byte (R54, R182). -/
def ChannelLevel.code : ChannelLevel → Nat
  | .unknown => 0
  | .isOpen => 1
  | .isClosed => 2

/-- Edge byte of a pending field, whose list is NONE, CLOSING, OPENING (R54, R182, log 13). -/
def Edge.code : Edge → Nat
  | .closing => 1
  | .opening => 2

/-- Slot state byte (R71, R182). -/
def SlotState.code : SlotState → Nat
  | .free => 0
  | .suspended => 1
  | .due => 2

/-- Indicate request byte, whose list is LEFT, RIGHT, NONE (R70, R182, log 13). -/
def Side.code : Side → Nat
  | .left => 0
  | .right => 1

/-- Proof status byte (R92, R182). -/
def ProofStatus.code : ProofStatus → Nat
  | .unknown => 0
  | .proven => 1
  | .degraded => 2
  | .isOpen => 3

/-- Trip state byte (R92, R182). -/
def TripState.code : TripState → Nat
  | .normal => 0
  | .cooling => 1
  | .latched => 2

/-- Pod state byte (R100, R182). -/
def PodState.code : PodState → Nat
  | .unheard => 0
  | .live => 1
  | .silent => 2

/-- Flasher state byte (R114, R182). -/
def FlasherState.code : FlasherState → Nat
  | .idle => 0
  | .lit => 1
  | .dark => 2

/-- Rate byte (R114, R182). -/
def Rate.code : Rate → Nat
  | .normal => 0
  | .fast => 1

/-- Threshold state byte (R130, R182). -/
def ThresholdState.code : ThresholdState → Nat
  | .unknown => 0
  | .active => 1
  | .inactive => 2

/-- SOURCE (R35): heard state, remaining watch time or 0xFFFF while stopped (R182). -/
def sourceData (s : State) (a : Fin 64) : List Byte :=
  let x := s.routes.sources[a]
  oneByte x.heard.code ++ orNone2 (x.watch.map fun t => remaining (some t) s.now Config.ms10)

/-- EVENT (R54). -/
def eventData (s : State) (c : Fin 32) : List Byte :=
  let x := s.events.channels[c]
  oneByte x.level.code ++ orNone1 (x.pending.map Edge.code) ++ flagByte x.masked ++ flagByte x.inService

/-- SLOT (R71). -/
def slotData (s : State) (k : Fin 4) : List Byte :=
  let x := s.engine.slots[k]
  oneByte x.state.code ++ oneByte x.channel.val ++ orNone2 (x.next.map (·.val)) ++
    twoBytes (if x.state = .suspended then remaining x.timer s.now Config.ms100 else 0)

/-- The 16 mode flags with Mk in bit k (R182). -/
def modesWord (v : Vector Bool 16) : Nat := (List.finRange 16).foldr (fun k n => (v[k]).toNat + 2 * n) 0

/-- MODES (R70, R182). -/
def modesData (s : State) : List Byte :=
  twoBytes (modesWord s.engine.modes) ++ orNone1 (s.engine.indicate.map Side.code) ++ oneByte s.engine.fanRequest.val

/-- LOAD (R112). -/
def loadData (s : State) (l : Fin 32) : List Byte :=
  let x := s.lamps.loads[l]
  oneByte x.requested.val ++ flagByte x.ramp ++ oneByte x.current.val ++ oneByte x.effective.val ++ flagByte x.demand ++
    orNone1 (x.binding.map fun b => b.1.val * 16 + b.2.val) ++ oneByte x.proof.code ++ oneByte x.trip.code ++ oneByte x.retry ++
    twoBytes (remaining x.coolOff s.now Config.ms100) ++
    twoBytes (match x.litSince with
      | some t => min 65535 ((s.now - t) / Config.ms10)
      | none => 0)

/-- POD (R112). -/
def podData (s : State) (P : Fin 12) : List Byte :=
  let x := s.lamps.pods[P]
  oneByte x.state.code ++ ((List.finRange 8).flatMap fun k => oneByte (x.levels[k]).val) ++ flagByte x.dirty ++
    twoBytes (remaining x.refresh s.now Config.ms10) ++ twoBytes (remaining x.report s.now Config.ms10)

/-- FLASHER (R126). -/
def flasherData (s : State) : List Byte :=
  oneByte s.flasher.state.code ++ oneByte s.flasher.counter ++ oneByte s.flasher.loaded ++ oneByte s.flasher.rate.code ++
    flagByte (s.lampEnv.flashing (some .left)) ++ flagByte (s.lampEnv.flashing (some .right))

/-- The supply value as a READ-STATE reads it (R138, R163). -/
def peekSupply (s : State) : Nat :=
  match s.sampler.average0 with
  | some a => 2 * a
  | none => s.tables.peekParam .gaugeReference

/-- DESCRIPTOR (R141), with the supply value for index 0. -/
def descriptorData (s : State) (d : Fin 16) : List Byte :=
  let x := s.sampler.descriptors[d]
  oneByte x.held ++ twoBytes x.sum ++ orNone1 x.window ++ orNone2 x.average ++ oneByte x.threshold.code ++ flagByte x.stale ++
    twoBytes (remaining x.staleTimer s.now Config.ms10) ++ (if d = 0 then twoBytes (peekSupply s) else [])

/-- TACH (R141). -/
def tachData (s : State) : List Byte :=
  twoBytes s.sampler.gateCount ++ orNone2 s.sampler.tach ++ twoBytes (remaining (some s.sampler.gateTimer) s.now Config.ms10)

/-- GAUGE (R156). -/
def gaugeData (s : State) (g : Fin 4) : List Byte :=
  let x := s.gauges.gauges[g]
  twoBytes x.target ++ twoBytes x.deflection ++ twoBytes x.duty ++ flagByte x.undersupplied ++ flagByte x.stale ++ flagByte x.held ++
    twoBytes (peekSupply s)

/-- FAN (R156): request, effective level judged now, fraction, duty, UNDERSUPPLIED, HELD, supply value. -/
def fanData (s : State) : List Byte :=
  let x := s.gauges.fan
  oneByte s.engine.fanRequest.val ++ oneByte (fanEffective s.ignition s.shed s.engine.fanRequest.val (s.tables.peekParam .shedCap)) ++
    twoBytes x.fraction ++ twoBytes x.duty ++ flagByte x.undersupplied ++ flagByte x.held ++ twoBytes (peekSupply s)

/-- An index within an object's range. -/
def within (n index : Nat) : Option (Fin n) := if h : index < n then some ⟨index, h⟩ else none

/-- The record a READ-STATE names, or `none` when object or index is out of range (R163); the index of MODES, FLASHER, TACH and FAN is not
read. -/
def recordOf (s : State) (object index : Nat) : Option (List Byte) :=
  match object with
  | 0 => (within 64 index).map (sourceData s)
  | 1 => (within 32 index).map (eventData s)
  | 2 => (within 4 index).map (slotData s)
  | 3 => some (modesData s)
  | 4 => (within 32 index).map (loadData s)
  | 5 => (within 12 index).map (podData s)
  | 6 => some (flasherData s)
  | 7 => (within 16 index).map (descriptorData s)
  | 8 => some (tachData s)
  | 9 => (within 4 index).map (gaugeData s)
  | 10 => some (fanData s)
  | _ => none

/-- READ_STATE (R163). -/
def execReadState (dt : Time) (p : PortId) (s : State) : Result :=
  live dt s fun s =>
    match (s.port p).request with
    | some (f, some (.readState object index)) =>
      (unlessBusy s p f fun s =>
        match recordOf s object index with
        | some data => answer s p f .done data
        | none => answer s p f .badRange []).releasePool p
    | _ => s

/-! ## READ-COUNTERS -/

/-- The data of the device group's reply (R165, R182). -/
def deviceCounters (s : State) : List Byte :=
  twoBytes s.tables.parityCount.toNat ++ twoBytes s.routes.routeMiss.toNat ++ twoBytes s.routes.reportError.toNat ++
    twoBytes s.events.edgeLost.toNat ++ twoBytes s.engine.chainFault.toNat ++ twoBytes s.engine.slotFull.toNat

/-- Part 1 of a port group's reply (R165). -/
def portCounters1 (c : PortCounters) : List Byte :=
  oneByte 1 ++ twoBytes c.rxGood.toNat ++ twoBytes c.rxFormat.toNat ++ twoBytes c.rxCheck.toNat ++ twoBytes c.rxOverflow.toNat

/-- Part 2 of a port group's reply (R165). -/
def portCounters2 (c : PortCounters) : List Byte :=
  oneByte 2 ++ twoBytes c.txSent.toNat ++ twoBytes c.txCollide.toNat ++ twoBytes c.txDrop.toNat ++ twoBytes c.serviceDrop.toNat

/-- The six device counters at 0 (R165). -/
def clearDeviceCounters (s : State) : State :=
  { s with
    tables := { s.tables with parityCount := 0 }
    routes := { s.routes with routeMiss := 0, reportError := 0 }
    events := { s.events with edgeLost := 0 }
    engine := { s.engine with chainFault := 0, slotFull := 0 } }

/-- The eight counters of a port at 0 (R30). -/
def clearPortCounters (s : State) (g : PortId) : State := s.setPort g { s.port g with counters := .zero }

/-- A port group answered with its two parts, after the values were taken and the clearing made (R165). -/
def answerPortGroup (s : State) (p : PortId) (f : Frame) (g : PortId) (clear : Bool) : State :=
  let c := (s.port g).counters
  let s := if clear then clearPortCounters s g else s
  answer (answer s p f .done (portCounters1 c)) p f .done (portCounters2 c)

/-- READ-COUNTERS judged on its range and performed (R165). -/
def readCounters (s : State) (p : PortId) (f : Frame) (group clear : Nat) : State :=
  if 1 < clear then answer s p f .badRange []
  else
    match group with
    | 0 => answerPortGroup s p f .front (clear == 1)
    | 1 => answerPortGroup s p f .rear (clear == 1)
    | 2 => answer (if clear = 1 then clearDeviceCounters s else s) p f .done (deviceCounters s)
    | _ => answer s p f .badRange []

/-- READ_COUNTERS (R165). -/
def execReadCounters (dt : Time) (p : PortId) (s : State) : Result :=
  live dt s fun s =>
    match (s.port p).request with
    | some (f, some (.readCounters group clear)) => (unlessBusy s p f fun s => readCounters s p f group clear).releasePool p
    | _ => s

/-! ## CLEAR-LATCH and BAD-REQUEST -/

/-- The trip state of the loads named cleared, and each resolved (R167, R110). -/
def clearLatches (s : State) (ls : List (Fin 32)) : State :=
  resolveLoads { s with lamps := { s.lamps with loads := ls.foldl (fun v l => upd v l LoadRecord.clearTrip) s.lamps.loads } } false ls

/-- The loads a CLEAR-LATCH operand names: a load, 0xFF for ALL, or `none` (R167, R182). -/
def latchLoads (load : Nat) : Option (List (Fin 32)) :=
  if load = 0xFF then some (List.finRange 32) else (within 32 load).map fun l => [l]

/-- CLEAR_LATCH (R167): accepted whatever IGNITION holds. -/
def execClearLatch (dt : Time) (p : PortId) (s : State) : Result :=
  live dt s fun s =>
    match (s.port p).request with
    | some (f, some (.clearLatch load)) =>
      (unlessBusy s p f fun s =>
        match latchLoads load with
        | some ls => answer (clearLatches s ls) p f .done []
        | none => answer s p f .badRange []).releasePool p
    | _ => s

/-- BAD_REQUEST (R159): judged before BUSY, in every state of the service engine. -/
def execBadRequest (dt : Time) (p : PortId) (s : State) : Result :=
  live dt s fun s =>
    match (s.port p).request with
    | some (f, none) => (answer s p f .badRequest []).releasePool p
    | _ => s

end Sys2Proof.Machine
end

