-- ==== Sys2Proof/Machine/Storage.lean ====
section
/-! DEFINITION. The stores: NV programming and loading (R13, R169, R170), LOAD-LIMP (R168), RESTART (R171), the feed and its hold
(R172, R173), and bits disturbed in storage (R10). -/

namespace Sys2Proof.Machine

/-- What an unlisted address of the NV image reads as: an erased word (R13, log 11). -/
def nvUnlisted (_ : Nat) : Word16 := 0xFFFF#16

/-- A word of the NV image. -/
def State.nvWord (s : State) (a : Nat) : Word16 := Memory.read nvUnlisted s.nv a

/-- The check word of 1408 words: the complement of their ones' complement sum (R13). -/
def nvCheck (image : Nat → Word16) : Word16 :=
  ~~~(BitVec.ofNat 16 (onesSum ((List.range tableWords).map fun a => (image a).toNat)))

/-- The NV judgement of power-on, on the comparison alone (R13). -/
def nvGood (s : State) : Bool := s.nvWord tableWords == nvCheck s.nvWord

/-- The store filled at power-on (R13, R14). -/
def loadTables (s : State) : State :=
  s.withTables (if nvGood s then s.tables.fill s.nvWord .nv else s.tables.fill (Limp.word s.straps.limp) .limp)

/-- The NV image of a STORE: the 1408 words as read and their check word (R169). -/
def storeImage (t : TableStore) : List (Nat × Word16) :=
  Memory.ofFn nvUnlisted nvWords fun a => if a < tableWords then (t.word a).data else nvCheck fun b => (t.word b).data

/-- The NV image after a programming that failed or was abandoned: free words (R170, log 9). -/
def brokenImage (draw : Nat) : List (Nat × Word16) := Memory.ofFn nvUnlisted nvWords (Config.nvAfterBrokenProgramming draw)

/-- A STORE in flight is abandoned with no reply (R158, R173). -/
def abandonStore (s : State) : State :=
  match s.service with
  | .storing .. => { s with service := .idle, nv := brokenImage s.draws, draws := s.draws + 1 }
  | .idle | .restarting => s

/-! ## STORE -/

/-- STORE accepted (R169): every word's parity is checked; a failing word ends it at once, otherwise it is in flight. -/
def beginStore (s : State) (p : PortId) (f : Frame) : State :=
  match s.tables.readBlock 0 tableWords with
  | (t, none) => answer (s.withTables t) p f .failed []
  | (_, some _) => { s with service := .storing f.src p (storeImage s.tables) }

/-- STORE (R169). -/
def execStore (dt : Time) (p : PortId) (s : State) : Result :=
  live dt s fun s =>
    match (s.port p).request with
    | some (f, some .store) => (unlessBusy s p f fun s => beginStore s p f).releasePool p
    | _ => s

/-- The request code of STORE, which its deferred reply carries (R160, R182). -/
def storeCode : Byte := 7#8

/-- The deferred reply of a STORE offered (R170). -/
def answerStore (s : State) (requester : LoomAddr) (p : PortId) (status : Status) : State :=
  s.setPort p ((s.port p).offerReply (replyFrame s requester storeCode status []) false)

/-- STORE_COMPLETE (R170). -/
def execStoreComplete (dt : Time) (verified : Bool) (s : State) : Result :=
  live dt s fun s =>
    match s.service with
    | .storing requester p image =>
      if verified then
        answerStore { s with service := .idle, nv := image, tables := { s.tables with source := .nv } } requester p .done
      else answerStore { s with service := .idle, nv := brokenImage s.draws, draws := s.draws + 1 } requester p .failed
    | .idle | .restarting => s

/-! ## LOAD-LIMP and RESTART -/

/-- The variant byte (R182). -/
def variantOf (n : Nat) : Option LimpVariant :=
  match n with
  | 0 => some .separate
  | 1 => some .combined
  | _ => none

/-- An accepted LOAD-LIMP (R168): all 1408 words, as for a WRITE-TABLE covering every word. -/
def loadLimp (s : State) (v : LimpVariant) : State :=
  resolveAll (eventsWritten (s.withTables (s.tables.fill (Limp.word v) .limp)) (List.finRange 32))

/-- LOAD_LIMP (R168). -/
def execLoadLimp (dt : Time) (p : PortId) (s : State) : Result :=
  live dt s fun s =>
    match (s.port p).request with
    | some (f, some (.loadLimp variant)) =>
      (unlessBusy s p f fun s =>
        if s.ignition then answer s p f .notParked []
        else
          match variantOf variant with
          | some v => answer (loadLimp s v) p f .done []
          | none => answer s p f .badRange []).releasePool p
    | _ => s

/-- RESTART accepted (R171): the reply DONE is queued and marked, and the engine waits for it to leave; dropped at a full queue, the restart
is made at once. -/
def beginRestart (s : State) (p : PortId) (f : Frame) : State :=
  let full := decide (8 ≤ (s.port p).queue.length)
  let s := s.setPort p ((s.port p).offerReply (replyFrame s f.src (requestCode f) .done []) true)
  if full then resetBlocks true s else { s with service := .restarting }

/-- RESTART (R171). -/
def execRestart (dt : Time) (p : PortId) (s : State) : Result :=
  live dt s fun s =>
    match (s.port p).request with
    | some (f, some .restart) => (unlessBusy s p f fun s => beginRestart s p f).releasePool p
    | _ => s

/-! ## The feed -/

/-- LOW_SUPPLY_HOLD (R173). -/
def execLowSupplyHold (dt : Time) (s : State) : Result :=
  live dt s fun s => { abandonStore s with power := .held }

/-- The store once the feed has fallen below 2.5 V, or while its loading is cut short: free words and source (R173, logs 6 and 10). -/
def lostTables (t : TableStore) (draw : Nat) : TableStore :=
  { t with
    cells := Memory.ofFn unlistedWord tableWords fun a =>
      ⟨(Config.lostWord draw a).1, (Config.lostWord draw a).2.1, (Config.lostWord draw a).2.2⟩
    source := Config.lostSource draw }

/-- The reset that ends a state of the feed is a power-on: the part was not powered yet, the feed has fallen below 2.5 V, or the hold began
before loading had completed (R173). -/
def Power.endsInPowerOn : Power → Bool
  | .lost => true
  | .unloaded => true
  | .running => false
  | .held => false

/-- The feed has fallen again before the loading of the store had completed (R173, log 6). -/
def cutLoading (s : State) : State :=
  { s with power := .unloaded, tables := lostTables s.tables s.draws, draws := s.draws + 1 }

/-- POWER_ON (R172, R173, log 6): the straps are sampled, the store filled, and every block reset. -/
def execPowerOn (dt : Time) (rise : FeedRise) (s : State) : Result :=
  let s := s.elapse dt
  .next
    (if s.power.endsInPowerOn then
      if rise.loaded then resetBlocks false (loadTables { s with power := .running, straps := rise.pins })
      else cutLoading { s with straps := rise.pins }
    else s)

/-- BROWN_OUT (R173): a hold that no power-on ends is ended with the store kept and every block reset. -/
def execBrownOut (dt : Time) (s : State) : Result :=
  let s := s.elapse dt
  .next (if s.power = .held then resetBlocks false { s with power := .running } else s)

/-- FEED_FELL_BELOW_2_5_V (R173): during a hold, what was retained is no longer kept. -/
def execFeedFellBelow2V5 (dt : Time) (s : State) : Result :=
  let s := s.elapse dt
  .next
    (if s.power = .held ∨ s.power = .unloaded then
      { s with power := .lost, tables := lostTables s.tables s.draws, straps := Config.lostStraps s.draws, draws := s.draws + 1 }
    else s)

/-- BITS_DISTURBED_IN_STORAGE (R10, logs 12 and 25): storage may be disturbed in a hold too. -/
def execBitsDisturbedInStorage (dt : Time) (area : Area) (index : Nat) (data : Word16) (s : State) : Result :=
  let s := s.elapse dt
  if index < area.words then
    .next (s.withTables (s.tables.setWord (address area index) ((s.tables.word (address area index)).disturb data)))
  else .fault .noSuchWord

end Sys2Proof.Machine
end

