-- ==== Sys2Proof/Machine/Dispatch.lean ====
section
/-! DEFINITION. The meaning of each command: one arm per constructor of Instr, each one direct call. -/

namespace Sys2Proof.Machine

def exec (i : Instr) (s : State) : Host.Outcome State Fault Refusal :=
  match i with
  | .powerOn dt rise => Sys2Proof.Machine.execPowerOn dt rise s
  | .brownOut dt => Sys2Proof.Machine.execBrownOut dt s
  | .lowSupplyHold dt => Sys2Proof.Machine.execLowSupplyHold dt s
  | .frameEnd dt p => Sys2Proof.Machine.execFrameEnd dt p s
  | .skipEnd dt p => Sys2Proof.Machine.execSkipEnd dt p s
  | .transmitStart dt p => Sys2Proof.Machine.execTransmitStart dt p s
  | .frameSent dt part => Sys2Proof.Machine.execFrameSent dt part s
  | .collision dt part => Sys2Proof.Machine.execCollision dt part s
  | .transitCopy dt p => Sys2Proof.Machine.execTransitCopy dt p s
  | .routeWalk dt p => Sys2Proof.Machine.execRouteWalk dt p s
  | .actionTake dt => Sys2Proof.Machine.execActionTake dt s
  | .chainResume dt => Sys2Proof.Machine.execChainResume dt s
  | .waitExpiry dt slot => Sys2Proof.Machine.execWaitExpiry dt slot s
  | .watchExpiry dt src => Sys2Proof.Machine.execWatchExpiry dt src s
  | .ignitionInputChange dt on => Sys2Proof.Machine.execIgnitionInputChange dt on s
  | .ignitionDebounceExpiry dt => Sys2Proof.Machine.execIgnitionDebounceExpiry dt s
  | .loadFadeExpiry dt => Sys2Proof.Machine.execLoadFadeExpiry dt s
  | .coolOffExpiry dt l => Sys2Proof.Machine.execCoolOffExpiry dt l s
  | .refreshExpiry dt pod => Sys2Proof.Machine.execRefreshExpiry dt pod s
  | .reportTimerExpiry dt pod => Sys2Proof.Machine.execReportTimerExpiry dt pod s
  | .flasherTick dt => Sys2Proof.Machine.execFlasherTick dt s
  | .conversion dt c0 c1 c2 c3 => Sys2Proof.Machine.execConversion dt c0 c1 c2 c3 s
  | .staleExpiry dt d => Sys2Proof.Machine.execStaleExpiry dt d s
  | .coilPulse dt => Sys2Proof.Machine.execCoilPulse dt s
  | .gateExpiry dt => Sys2Proof.Machine.execGateExpiry dt s
  | .gaugeUpdate dt => Sys2Proof.Machine.execGaugeUpdate dt s
  | .identify dt p => Sys2Proof.Machine.execIdentify dt p s
  | .readTable dt p => Sys2Proof.Machine.execReadTable dt p s
  | .writeTable dt p => Sys2Proof.Machine.execWriteTable dt p s
  | .readState dt p => Sys2Proof.Machine.execReadState dt p s
  | .readCounters dt p => Sys2Proof.Machine.execReadCounters dt p s
  | .clearLatch dt p => Sys2Proof.Machine.execClearLatch dt p s
  | .store dt p => Sys2Proof.Machine.execStore dt p s
  | .loadLimp dt p => Sys2Proof.Machine.execLoadLimp dt p s
  | .restart dt p => Sys2Proof.Machine.execRestart dt p s
  | .badRequest dt p => Sys2Proof.Machine.execBadRequest dt p s
  | .storeComplete dt verified => Sys2Proof.Machine.execStoreComplete dt verified s
  | .byteReceived dt p edge => Sys2Proof.Machine.execByteReceived dt p edge s
  | .sentByteReadBackEqual dt p => Sys2Proof.Machine.execSentByteReadBackEqual dt p s
  | .feedFellBelow2V5 dt => Sys2Proof.Machine.execFeedFellBelow2V5 dt s
  | .bitsDisturbedInStorage dt area index data => Sys2Proof.Machine.execBitsDisturbedInStorage dt area index data s

end Sys2Proof.Machine
end

