-- ==== Sys2Proof/Safety.lean ====
section
/-! DEFINITION. What counts as a safe run: the standing conditions the manual states of every moment of a running part. Each is a
condition on one state; a run is safe when every state it passes through meets them. -/

namespace Sys2Proof.Machine

/-- The image a STORE in flight carries is in canonical form (R169). -/
def ServiceState.imageWf : ServiceState → Bool
  | .storing _ _ image => Memory.wf nvUnlisted nvWords image
  | .idle => true
  | .restarting => true

/-- Both memories, and the image of a STORE in flight, are in canonical form (log 11). -/
abbrev State.MemoryWf (s : State) : Prop :=
  Memory.wf unlistedWord tableWords s.tables.cells = true ∧ Memory.wf nvUnlisted nvWords s.nv = true ∧ s.service.imageWf = true

/-- Block reads alone lie between two table stores (R8, R10): source, data and parity bits stand, marks are only added, and only to failing
words; where no word fails, nothing has changed. PARITY never goes down, and where it has not moved and is below 65535 no read has failed and
nothing has changed. -/
abbrev TableStore.ReadsOnly (t u : TableStore) : Prop :=
  u.source = t.source ∧
    (∀ a, (u.word a).data = (t.word a).data ∧ (u.word a).parity = (t.word a).parity ∧ ((t.word a).mark = true → (u.word a).mark = true) ∧
      ((u.word a).mark = true → (t.word a).mark = true ∨ (t.word a).fails = true)) ∧
    ((∀ a, (t.word a).fails = false) → u = t) ∧ t.parityCount.toNat ≤ u.parityCount.toNat ∧
    (u.parityCount = t.parityCount → t.parityCount.toNat < 65535 → u = t)

/-- A transmit queue as R25 describes it: at most 8 frames, a started mark on the head alone, and at most one not-yet-started LAMPCMD
for any one pod record. -/
abbrev QueueWf (q : List QueueEntry) : Prop :=
  q.length ≤ 8 ∧ (∀ e ∈ q.tail, e.started = false) ∧ ∀ P : Fin 12, q.countP (·.waitsFor P) ≤ 1

/-- The receive pools as R22 and R23 leave them: at most one SERVING, and one HELD only behind the other's SERVING. -/
abbrev Port.PoolsWf (q : Port) : Prop :=
  match q.poolA, q.poolB with
  | .free, .free => True
  | .serving _, .free => True
  | .free, .serving _ => True
  | .serving _, .held _ => True
  | .held _, .serving _ => True
  | .held _, .free => False
  | .free, .held _ => False
  | .held _, .held _ => False
  | .serving _, .serving _ => False

/-- The receiver's part of R19: the first 22 bytes of a frame are kept and every byte is counted. -/
abbrev Reception.Wf (r : Reception) : Prop := r.bytes.length = min 22 r.count

/-- A load record (R92, R96, R99, R106, R109): the retry count within 0 to 7 and below 7 while not LATCHED, effective level 0 while
unconfigured, COOLING or LATCHED, the cool-off timer running exactly while COOLING, and lit-since held exactly while at level 15. -/
abbrev LoadRecord.Wf (r : LoadRecord) : Prop :=
  r.retry ≤ 7 ∧ (r.trip ≠ .latched → r.retry ≤ 6) ∧ (r.binding = none → r.effective = 0) ∧ (r.trip ≠ .normal → r.effective = 0) ∧
    (r.coolOff.isSome = true ↔ r.trip = .cooling) ∧ (r.litSince.isSome = true ↔ r.effective = 15)

/-- A descriptor record (R130, R132): with no sample held, no sum and no window; otherwise fewer samples than the window in use, which is
1 to 16, and a sum of at most 1023 for each. The average is 0 to 1023. -/
abbrev DescriptorRecord.Wf (r : DescriptorRecord) : Prop :=
  (match r.window with
    | none => r.held = 0 ∧ r.sum = 0
    | some n => 1 ≤ n ∧ n ≤ 16 ∧ 1 ≤ r.held ∧ r.held < n ∧ r.sum ≤ 1023 * r.held) ∧
    ∀ a ∈ r.average, a ≤ 1023

/-- The gauge drive's ranges (R142, R143, R151). -/
abbrev GaugeDrive.Bounded (d : GaugeDrive) : Prop :=
  (∀ g : Fin 4, (d.gauges[g]).target ≤ 1000 ∧ (d.gauges[g]).deflection ≤ 1000 ∧ (d.gauges[g]).duty ≤ 1024) ∧
    d.fan.fraction ≤ 1000 ∧ d.fan.duty ≤ 1024

/-- Every driven quantity of the gauge drive is 0 (R143). -/
abbrev GaugeDrive.AtRest (d : GaugeDrive) : Prop :=
  (∀ g : Fin 4, (d.gauges[g]).deflection = 0 ∧ (d.gauges[g]).duty = 0) ∧ d.fan.fraction = 0 ∧ d.fan.duty = 0

/-- The chain a slot holds, by its channel: none while FREE (R71). -/
def Slot.heldFor (k : Slot) : Option (Fin 32) :=
  match k.state with
  | .free => none
  | .suspended => some k.channel
  | .due => some k.channel

/-- R71: a channel is in-service exactly when a slot holds a chain for it, no two slots hold chains of one channel, and a slot's wait
timer runs exactly while it is SUSPENDED. -/
abbrev State.SlotsWf (s : State) : Prop :=
  (∀ c : Fin 32, (s.events.channels[c]).inService = true ↔ ∃ k : Fin 4, (s.engine.slots[k]).heldFor = some c) ∧
    (∀ j k : Fin 4, (s.engine.slots[j]).heldFor = (s.engine.slots[k]).heldFor → (s.engine.slots[j]).heldFor ≠ none → j = k) ∧
    ∀ k : Fin 4, (s.engine.slots[k]).timer.isSome = true ↔ (s.engine.slots[k]).state = .suspended

/-- R114 to R118: the flasher runs exactly while a side is flashing; while it runs its counter is 1 to its loaded length of at most 255
and its tick timer runs; while IDLE counter, loaded length and timer are 0 and stopped. -/
abbrev State.FlasherWf (s : State) : Prop :=
  if s.lampEnv.eitherFlashing = true then
    s.flasher.state ≠ .idle ∧ 1 ≤ s.flasher.counter ∧ s.flasher.counter ≤ s.flasher.loaded ∧ s.flasher.loaded ≤ 255 ∧
      s.flasher.tick.isSome = true
  else s.flasher.state = .idle ∧ s.flasher.counter = 0 ∧ s.flasher.loaded = 0 ∧ s.flasher.tick = none

/-- A pod's last commanded levels are the merged levels of the loads bound to it (R101). -/
abbrev State.PodsMerged (s : State) : Prop := ∀ P : Fin 12, (s.lamps.pods[P]).levels = mergedLevels s.lamps.loads P

/-- A pod's report timer is stopped exactly while it is SILENT (R104). -/
abbrev PodRecord.Wf (r : PodRecord) : Prop := r.report = none ↔ r.state = .silent

/-- A SILENT source's watch timer is stopped (R49). -/
abbrev SourceRecord.Wf (r : SourceRecord) : Prop := r.heard = .silent → r.watch = none

/-! ## What a reset leaves -/

/-- A port after a reset at moment `now` (R32). -/
abbrev Port.SetUp (q : Port) (now : Time) : Prop :=
  q.line = .idle ∧ q.quietFrom = now ∧ q.reception = ⟨[], 0, false⟩ ∧ q.poolA = .free ∧ q.poolB = .free ∧ q.queue = [] ∧ q.sentBytes = 0 ∧
    q.refillOwed = false

/-- The port counters are all 0 (R31). -/
abbrev PortCounters.AllZero (c : PortCounters) : Prop :=
  c.rxGood = 0 ∧ c.rxFormat = 0 ∧ c.rxCheck = 0 ∧ c.rxOverflow = 0 ∧ c.txSent = 0 ∧ c.txCollide = 0 ∧ c.txDrop = 0 ∧ c.serviceDrop = 0

/-- The runtime records of every block right after a reset of any kind, as the tables then stand (R32, R36, R55, R57, R70, R93, R100, R114,
R131, R139, R142, R143, R151, R158). -/
abbrev State.SetUp (s : State) : Prop :=
  s.front.SetUp s.now ∧ s.rear.SetUp s.now ∧
    (∀ a : Fin 64, (s.routes.sources[a]).heard = .unheard ∧
      (s.routes.sources[a]).watch = (s.tables.directory a).2.bind fun e => if e.watch = 0 then none else some (s.now + e.watch * Config.ms500)) ∧
    (∀ c : Fin 32, s.events.channels[c] = ⟨.unknown, none, ((s.tables.event c).2.map (·.initialMask)).getD true, false⟩) ∧
    s.events.debounced = none ∧ s.events.debounceTimer = some (s.now + Config.ms20) ∧
    (∀ k : Fin 4, s.engine.slots[k] = ⟨.free, 0, none, none⟩) ∧ (∀ m : Fin 16, s.mode m = false) ∧ s.engine.indicate = none ∧
    s.engine.fanRequest = 0 ∧
    (∀ l : Fin 32, s.lamps.loads[l] =
      ⟨0, false, 0, 0, false, (s.tables.load l).2.bind fun e => e.pod.map fun P => (P, e.output), .unknown, .normal, 0, none, none⟩) ∧
    (∀ P : Fin 12, s.lamps.pods[P] =
      ⟨.unheard, Vector.replicate 8 0, false, some (s.now + s.tables.peekParam .refreshPeriod * Config.ms500),
        some (s.now + 3 * s.tables.peekParam .refreshPeriod * Config.ms500)⟩) ∧
    s.lamps.fadeTimer = s.now + Config.ms100 ∧ s.flasher = ⟨.idle, 0, 0, .normal, none⟩ ∧
    (∀ d : Fin 16, s.sampler.descriptors[d] =
      ⟨0, 0, none, none, .unknown, false,
        (s.tables.descriptor d).2.bind fun e => if e.stale = 0 then none else some (s.now + e.stale * Config.ms500)⟩) ∧
    s.sampler.conversionTimer = s.now + Config.ms20 ∧ s.sampler.gateCount = 0 ∧ s.sampler.lastPulse = none ∧
    s.sampler.gateTimer = s.now + Config.ms500 ∧ s.sampler.tach = none ∧
    (∀ g : Fin 4, s.gauges.gauges[g] = ⟨0, 0, 0, false, false, false⟩) ∧ s.gauges.fan = ⟨0, 0, false, false⟩ ∧
    s.gauges.updateTimer = s.now + Config.ms100 ∧ s.service = .idle

/-! ## Hypotheses the statements share -/

/-- The wire of a port has been quiet for `t` at moment `now` (R15). -/
abbrev Port.QuietFor (q : Port) (now t : Time) : Prop := q.byteOnWire = false ∧ q.quietFrom + t ≤ now

/-- The part runs, and port `p`'s consumer of class `c` holds frame `f` (R23). -/
abbrev State.Serves (s : State) (p : PortId) (c : FrameClass) (f : Frame) : Prop := s.power = .running ∧ (s.port p).servingOf c = some f

/-- A timer runs and its time has come by moment `now`. -/
abbrev Due (timer : Option Time) (now : Time) : Prop := ∃ t, timer = some t ∧ t ≤ now

/-- The port with one reply offered to its queue and the request's pool released: a request taken on port `p` with no other effect on it
(R159, R160). -/
def Port.replied (q : Port) (f : Frame) : Port := (q.offerReply f false).release

end Sys2Proof.Machine
end

