-- ==== Sys2Proof/WellFormed.lean ====
section
/-! DEFINITION. Which commands are well formed. Every operand but one has a type that holds exactly the values it may take;
the index of a disturbed word is checked here against its area (R1). -/

namespace Sys2Proof

/-- A command is well formed: a disturbed word exists (R1). -/
def Instr.wellFormed : Instr → Bool
  | .bitsDisturbedInStorage _ area index _ => index < area.words
  | .powerOn .. | .brownOut .. | .lowSupplyHold .. | .frameEnd .. | .skipEnd .. | .transmitStart .. | .frameSent .. => true
  | .collision .. | .transitCopy .. | .routeWalk .. | .actionTake .. | .chainResume .. | .waitExpiry .. => true
  | .watchExpiry .. | .ignitionInputChange .. | .ignitionDebounceExpiry .. | .loadFadeExpiry .. => true
  | .coolOffExpiry .. | .refreshExpiry .. | .reportTimerExpiry .. | .flasherTick .. | .conversion .. => true
  | .staleExpiry .. | .coilPulse .. | .gateExpiry .. | .gaugeUpdate .. | .identify .. | .readTable .. => true
  | .writeTable .. | .readState .. | .readCounters .. | .clearLatch .. | .store .. | .loadLimp .. => true
  | .restart .. | .badRequest .. | .storeComplete .. | .byteReceived .. | .sentByteReadBackEqual .. => true
  | .feedFellBelow2V5 .. => true

end Sys2Proof
end

