-- ==== Sys2Proof/Certificates/Slice0/Obligations.lean ====
section
/-! DEFINITION. The statements for the provers. Each docstring names the rules of spec/ it rests on; where a clause rests on a choice of the
model it names the log entry. -/

open Sys2Proof Sys2Proof.Machine

/-! ## The step, the reset, the supply -/

/-- A step takes the command at the front of the queue and is that command's `exec` on the state with the queue's rest
(95_what_each_step_holds.md). That an empty queue idles is the model's choice (log 1). -/
def Obligations.StepRunsFrontCommand : Prop :=
  (∀ (c : Instr) (s : State), step { s with pending := c :: s.pending } = exec c s) ∧ ∀ s : State, s.pending = [] → step s = .next s

/-- Every well-formed command completes: no step from a queue of them faults or refuses. Three choices of the model stand in it, and no rule: that an empty
queue steps (log 1), that a command off its occasion still answers a next state (log 4), and what is well-formed (a disturbed word exists, log 25). -/
def Obligations.WellFormedCommandsComplete : Prop :=
  ∀ s : State, (∀ c ∈ s.pending, c.wellFormed = true) → ∃ t, step s = .next t

/-- The state after reset: running, every block set up as its chapter states, every counter 0, the limp tables loaded, and every standing condition met
(R31, R32, R36, R55, R70, R93, R100, R114, R131, R139, R142, R151, R158, R164). Three clauses are the model's choices: table source LIMP and the limp tables rest on
the erased NV image of log 7, the empty queue of commands on log 22, and the canonical form of the memories on log 11. -/
def Obligations.ResetIsSetUp : Prop :=
  State.reset.power = .running ∧ State.reset.SetUp ∧ State.reset.front.counters.AllZero ∧ State.reset.rear.counters.AllZero ∧
    State.reset.tables.parityCount = 0 ∧ State.reset.tables.tableFault = false ∧ State.reset.tables.source = .limp ∧
    State.reset.routes.routeMiss = 0 ∧ State.reset.routes.reportError = 0 ∧ State.reset.events.edgeLost = 0 ∧
    State.reset.engine.chainFault = 0 ∧ State.reset.engine.slotFull = 0 ∧ State.reset.pending = [] ∧
    State.reset.MemoryWf ∧ (∀ p, QueueWf (State.reset.port p).queue ∧ (State.reset.port p).PoolsWf ∧ (State.reset.port p).reception.Wf) ∧
    State.reset.SlotsWf ∧ (∀ l : Fin 32, (State.reset.lamps.loads[l]).Wf) ∧ State.reset.PodsMerged ∧ State.reset.FlasherWf ∧
    (∀ d : Fin 16, (State.reset.sampler.descriptors[d]).Wf) ∧ State.reset.gauges.Bounded ∧ State.reset.gauges.AtRest ∧
    (∀ P : Fin 12, (State.reset.lamps.pods[P]).Wf) ∧ ∀ a : Fin 64, (State.reset.routes.sources[a]).Wf

/-- POWER_ON is the reset where the part was not powered yet, where the feed has fallen below 2.5 V, and where the hold began before loading had completed (R173).
It samples the straps, fills the store from the NV image when its check word agrees and from the limp variant the LIMP strap names otherwise, clears every mark and
counter, and sets every block up (R10, R13, R14, R31, R164, R172). The check word agrees when it is the complement of the ones' complement sum of the 1408 data words,
added with end-around carry from 0 (R13). Where the feed falls again before the loading has completed, the straps are sampled, the
store holds free words (log 10), no block is reset, and the part is in a hold that a power-on ends: that this is said with the same command is log 6. In any other
state of the feed the event is no power-on and the clock moves alone (log 4). -/
def Obligations.PowerOnFillsAndSetsUp : Prop :=
  ∀ (dt : Time) (rise : FeedRise) (s : State),
    (s.power = .lost ∨ s.power = .unloaded → rise.loaded = true → ∃ t, exec (.powerOn dt rise) s = .next t ∧ t.SetUp ∧ t.power = .running ∧
      t.now = s.now + dt ∧ t.straps = rise.pins ∧ t.tables.source = (if nvGood s then .nv else .limp) ∧
      (∀ a < tableWords, t.tables.word a = fresh (if nvGood s then s.nvWord a else Limp.word rise.pins.limp a)) ∧
      t.tables.parityCount = 0 ∧ t.tables.tableFault = false ∧ t.front.counters.AllZero ∧ t.rear.counters.AllZero ∧ t.routes.routeMiss = 0 ∧
      t.routes.reportError = 0 ∧ t.events.edgeLost = 0 ∧ t.engine.chainFault = 0 ∧ t.engine.slotFull = 0 ∧ t.nv = s.nv ∧
      t.events.rawIgnition = s.events.rawIgnition ∧ t.pending = s.pending) ∧
    (s.power = .lost ∨ s.power = .unloaded → rise.loaded = false → ∃ t, exec (.powerOn dt rise) s = .next t ∧
      t = { s with now := s.now + dt, power := .unloaded, straps := rise.pins, tables := t.tables, draws := t.draws }) ∧
    (s.power = .running ∨ s.power = .held → exec (.powerOn dt rise) s = .next { s with now := s.now + dt }) ∧
    let sum := (List.range 1408).foldl (fun a i => let x := a + (s.nvWord i).toNat
      x % 65536 + x / 65536) 0
    (nvGood s = true ↔ s.nvWord 1408 = ~~~(BitVec.ofNat 16 sum))

/-- BROWN_OUT ends a hold that no power-on ends (R173): it keeps the store, its marks, its source and the straps, sets every counter to 0 before the reads of the
reset, and sets every block up (R10, R14, R31, R164). PARITY then counts from 0, one for each failing entry the reset reads: the DIRECTORY slots, the EVENT,
DESCRIPTOR and LOAD entries, each once, and the refresh period once for each of the 24 timers it starts (R10, R36, R55, R94, R100, R131; the 24 reads are log 19's).
In any other state of the feed the event is no brown-out and the clock moves alone (log 4). -/
def Obligations.BrownOutKeepsTheStore : Prop :=
  ∀ (dt : Time) (s : State),
    (s.power = .held → ∃ t, exec (.brownOut dt) s = .next t ∧ t.SetUp ∧ t.power = .running ∧ t.now = s.now + dt ∧ t.straps = s.straps ∧
      ({ s.tables with parityCount := 0 } : TableStore).ReadsOnly t.tables ∧
      t.tables.parityCount.toNat =
        ((List.finRange 64).countP fun a => (s.tables.directory a).2.isNone) + ((List.finRange 32).countP fun c => (s.tables.event c).2.isNone) +
          ((List.finRange 16).countP fun d => (s.tables.descriptor d).2.isNone) + ((List.finRange 32).countP fun l => (s.tables.load l).2.isNone) +
          (if (s.tables.word (address .parameters (Param.index .refreshPeriod))).fails then 24 else 0) ∧
      t.front.counters.AllZero ∧ t.rear.counters.AllZero ∧ t.routes.routeMiss = 0 ∧ t.routes.reportError = 0 ∧ t.events.edgeLost = 0 ∧
      t.engine.chainFault = 0 ∧ t.engine.slotFull = 0 ∧ t.nv = s.nv ∧ t.events.rawIgnition = s.events.rawIgnition ∧ t.pending = s.pending) ∧
    (s.power ≠ .held → exec (.brownOut dt) s = .next { s with now := s.now + dt })

/-- The low-supply hold (R57, R158, R170, R173). LOW_SUPPLY_HOLD enters it and abandons a STORE in flight with no reply, leaving a free NV image
(log 9); nothing else changes. FEED_FELL_BELOW_2_5_V ends the keeping of the store and the straps, whose contents are then free (log 10); nothing else
changes. In the hold no block takes an event: every command of the blocks moves the clock alone; the ignition pin and the loom wires, which are the world's,
are still followed (logs 18 and 24). -/
def Obligations.HoldStopsTheBlocks : Prop :=
  (∀ (dt : Time) (s : State), s.power = .running → ∃ t, exec (.lowSupplyHold dt) s = .next t ∧
    t = { s with now := s.now + dt, power := .held, service := t.service, nv := t.nv, draws := t.draws } ∧
    ((∀ r p i, s.service ≠ .storing r p i) → t.service = s.service ∧ t.nv = s.nv ∧ t.draws = s.draws) ∧
    ((∃ r p i, s.service = .storing r p i) → t.service = .idle ∧
      ∀ a < nvWords, t.nvWord a = Config.nvAfterBrokenProgramming s.draws a)) ∧
  (∀ (dt : Time) (s : State), s.power = .held ∨ s.power = .unloaded → ∃ t, exec (.feedFellBelow2V5 dt) s = .next t ∧
      t = { s with now := s.now + dt, power := .lost, tables := t.tables, straps := t.straps, draws := t.draws } ∧
      t.tables.parityCount = s.tables.parityCount) ∧
  ∀ (c : Instr) (s : State), s.power ≠ .running →
    match c with
    | .powerOn _ _ => True
    | .brownOut _ => True
    | .feedFellBelow2V5 _ => True
    | .bitsDisturbedInStorage _ _ _ _ => True
    | .ignitionInputChange dt on => exec c s = .next { s with now := s.now + dt, events := { s.events with rawIgnition := on } }
    | .byteReceived dt p edge =>
      exec c s = .next (({ s with now := s.now + dt } : State).setPort p { s.port p with byteOnWire := onWireAfter edge })
    | _ => exec c s = .next { s with now := s.now + c.elapsed }

/-- A disturbed word holds the disturbed data, fails parity and keeps its mark; every other word and everything else stands. A disturbance
of a word that does not exist faults (R1, R10, logs 12 and 25). One block read of words none of which fails gives their data and changes nothing; with a failing word
among them it gives no entry, PARITY counts once, each failing word of the block is marked, and nothing else changes (R10). -/
def Obligations.DisturbedWordFails : Prop :=
  (∀ (dt : Time) (area : Area) (index : Nat) (data : Word16) (s : State),
    (index < area.words → ∃ t, exec (.bitsDisturbedInStorage dt area index data) s = .next t ∧
      t = { s with now := s.now + dt, tables := t.tables } ∧ t.tables.source = s.tables.source ∧
      t.tables.parityCount = s.tables.parityCount ∧ (t.tables.word (area.base + index)).data = data ∧
      (t.tables.word (area.base + index)).fails = true ∧
      (t.tables.word (area.base + index)).mark = (s.tables.word (area.base + index)).mark ∧
      ∀ a, a ≠ area.base + index → t.tables.word a = s.tables.word a) ∧
    (area.words ≤ index → exec (.bitsDisturbedInStorage dt area index data) s = .fault .noSuchWord)) ∧
  ∀ (t : TableStore) (a n : Nat),
    let u := (t.readBlock a n).1
    ((∀ b, a ≤ b → b < a + n → (t.word b).fails = false) → u = t ∧ (t.readBlock a n).2 = some ((List.range' a n).map fun b => (t.word b).data)) ∧
    ((∃ b, a ≤ b ∧ b < a + n ∧ (t.word b).fails = true) → (t.readBlock a n).2 = none ∧ u.source = t.source ∧ u.parityCount = t.parityCount.bump ∧
      ∀ b, u.word b = if a ≤ b ∧ b < a + n ∧ (t.word b).fails = true then { t.word b with mark := true } else t.word b)

/-! ## Ports -/

/-- BYTE_RECEIVED moves the line as the rows of R16 for arriving bytes say, and touches nothing else of the part (R15, R16, log 18). -/
def Obligations.ByteReceivedFollowsLine : Prop :=
  ∀ (dt : Time) (p : PortId) (s : State), s.power = .running →
    let q := s.port p
    let next (r : Port) : Result := .next (({ s with now := s.now + dt } : State).setPort p r)
    (exec (.byteReceived dt p .begins) s =
      match q.line with
      | .idle =>
        if q.byteOnWire = false ∧ q.quietFrom + 2 * Config.byteTime ≤ s.now + dt then
          next { q with line := .receiving, reception := ⟨[], 0, false⟩, byteOnWire := true }
        else next { q with line := .skipping, byteOnWire := true }
      | .receiving => next { q with byteOnWire := true }
      | .skipping => next { q with byteOnWire := true }
      | .transmitting => next q) ∧
    ∀ (v : Byte) (stop : Bool), exec (.byteReceived dt p (.ends v stop)) s =
      match q.line with
      | .receiving =>
        next
          { q with
            reception := ⟨if q.reception.bytes.length < 22 then q.reception.bytes ++ [v] else q.reception.bytes, q.reception.count + 1,
              q.reception.byteFault || !stop⟩
            byteOnWire := false, quietFrom := s.now + dt }
      | .idle => next { q with byteOnWire := false, quietFrom := s.now + dt }
      | .skipping => next { q with byteOnWire := false, quietFrom := s.now + dt }
      | .transmitting => next q

/-- A complete frame that meets any condition of R19 is discarded and counts RX-FORMAT once; nothing else of the part changes, and the line
becomes IDLE with the quiet timer running on (R16, R19). -/
def Obligations.FormatErrorCountsOnce : Prop :=
  ∀ (dt : Time) (p : PortId) (s : State), s.power = .running → (s.port p).line = .receiving →
    (s.port p).QuietFor (s.now + dt) (2 * Config.byteTime) →
    let r := (s.port p).reception
    r.count < 6 ∨ r.count < 6 + byteAt r.bytes 3 ∨ 6 + byteAt r.bytes 3 < r.count ∨ 16 < byteAt r.bytes 3 ∨ 15 < byteAt r.bytes 2 ∨
        63 < byteAt r.bytes 0 ∨ 63 < byteAt r.bytes 1 ∨ r.byteFault = true →
      exec (.frameEnd dt p) s =
        .next (({ s with now := s.now + dt } : State).setPort p
          { s.port p with
            line := .idle, reception := ⟨[], 0, false⟩
            counters := { (s.port p).counters with rxFormat := (s.port p).counters.rxFormat.bump } })

/-- R20: of the frames that pass the judgement of form, one whose check does not match is discarded and counts RX-CHECK by 1, and nothing else
changes; one whose check matches is a good frame, and is counted by exactly one of RX-GOOD and RX-OVERFLOW. -/
def Obligations.CheckJudgedAfterForm : Prop :=
  ∀ (dt : Time) (p : PortId) (s : State), s.power = .running → (s.port p).line = .receiving →
    (s.port p).QuietFor (s.now + dt) (2 * Config.byteTime) → (s.port p).reception.formatError = false →
    let c := (s.port p).counters
    ((s.port p).reception.receivedCheck ≠ (checkOf (s.port p).reception.frame.body).toNat →
      exec (.frameEnd dt p) s =
        .next (({ s with now := s.now + dt } : State).setPort p
          { s.port p with line := .idle, reception := ⟨[], 0, false⟩, counters := { c with rxCheck := c.rxCheck.bump } })) ∧
    ((s.port p).reception.receivedCheck = (checkOf (s.port p).reception.frame.body).toNat →
      ∃ t, exec (.frameEnd dt p) s = .next t ∧
        ((t.port p).counters = { c with rxGood := c.rxGood.bump } ∨ (t.port p).counters = { c with rxOverflow := c.rxOverflow.bump }))

/-- A good frame is classed by its destination (R21) and placed: in a FREE pool, counting RX-GOOD and handed over at once when the port serves
nothing, or lost to RX-OVERFLOW when neither pool is FREE (R22, R23; with both pools FREE the model takes pool A, log 17). Nothing else of the
part changes but the reads of the two group addresses. -/
def Obligations.GoodFrameIsPlaced : Prop :=
  ∀ (dt : Time) (p : PortId) (s : State), s.power = .running → (s.port p).line = .receiving →
    (s.port p).QuietFor (s.now + dt) (2 * Config.byteTime) → (s.port p).reception.formatError = false →
    (s.port p).reception.checkPasses = true → (s.port p).PoolsWf →
    let q := s.port p
    let f := q.reception.frame
    let addressed := f.dest = s.hubAddress ∨ f.dest = 63 ∨
      (s.tables.peekParam .group1 ≠ 0 ∧ f.dest.val = s.tables.peekParam .group1) ∨
      (s.tables.peekParam .group2 ≠ 0 ∧ f.dest.val = s.tables.peekParam .group2)
    ∃ t cls, exec (.frameEnd dt p) s = .next t ∧
      (cls = .serviceRequest ↔ f.dest = s.hubAddress ∧ f.kind = kindService) ∧ (cls = .transit ↔ ¬addressed) ∧
      s.tables.ReadsOnly t.tables ∧
      t = { (({ s with now := s.now + dt } : State).setPort p (t.port p)) with tables := t.tables } ∧
      match q.poolA, q.poolB with
      | .free, .free =>
        t.port p = { q with line := .idle, reception := ⟨[], 0, false⟩, poolA := .serving ⟨f, cls⟩, olderB := false, counters := { q.counters with rxGood := q.counters.rxGood.bump } }
      | .free, _ =>
        t.port p = { q with line := .idle, reception := ⟨[], 0, false⟩, poolA := .held ⟨f, cls⟩, olderB := true, counters := { q.counters with rxGood := q.counters.rxGood.bump } }
      | _, .free =>
        t.port p = { q with line := .idle, reception := ⟨[], 0, false⟩, poolB := .held ⟨f, cls⟩, olderB := false, counters := { q.counters with rxGood := q.counters.rxGood.bump } }
      | _, _ => t.port p = { q with line := .idle, reception := ⟨[], 0, false⟩, counters := { q.counters with rxOverflow := q.counters.rxOverflow.bump } }

/-- SKIP_END, TRANSMIT_START and SENT_BYTE_READ_BACK_EQUAL move the line as R16 and R25 say and touch nothing else of the part: SKIPPING ends
after 2 byte times of quiet; after 3 the head frame of a queue that is not empty gets its started mark and the line is TRANSMITTING; a byte read
back equal, other than the frame's last, restarts the quiet timer. -/
def Obligations.LineEventsComplete : Prop :=
  ∀ (dt : Time) (p : PortId) (s : State), s.power = .running →
    let q := s.port p
    let next (r : Port) : Result := .next (({ s with now := s.now + dt } : State).setPort p r)
    (q.line = .skipping → q.QuietFor (s.now + dt) (2 * Config.byteTime) → exec (.skipEnd dt p) s = next { q with line := .idle }) ∧
    (∀ e rest, q.line = .idle → q.queue = e :: rest → q.QuietFor (s.now + dt) (3 * Config.byteTime) →
      exec (.transmitStart dt p) s = next { q with line := .transmitting, queue := { e with started := true } :: rest, sentBytes := 0 }) ∧
    ∀ e rest, q.line = .transmitting → q.queue = e :: rest → q.sentBytes + 1 < 6 + e.frame.payload.length →
      exec (.sentByteReadBackEqual dt p) s = next { q with sentBytes := q.sentBytes + 1, quietFrom := s.now + dt }

/-- FRAME_SENT: the head frame leaves the queue, TX-SENT counts, and the line is IDLE with the quiet timer restarted; then the port refills (R16, R25, R29). Taken
with its refill, the state is the refill of that; with no dirty pod the queue is the rest and nothing else changes. Taken alone, nothing else changes and
the refill is owed, so that a frame of another producer can be offered before it (R27, R29); the owed refill is made by the third form, and where none is owed that form
moves the clock alone (log 29). When the frame was the reply a RESTART waits for, the restart is made in the same event: every block is set up, and the counters, the
store's contents and the straps are kept (R31, R171, log 16). -/
def Obligations.FrameSentFreesTheHead : Prop :=
  ∀ (dt : Time) (p : PortId) (s : State), s.power = .running →
    (∀ (e : QueueEntry) (rest : List QueueEntry), (s.port p).line = .transmitting → (s.port p).queue = e :: rest →
      let freed (owed : Bool) : State := ({ s with now := s.now + dt } : State).setPort p
        { s.port p with
          line := .idle, quietFrom := s.now + dt, queue := rest, sentBytes := 0, refillOwed := owed
          counters := { (s.port p).counters with txSent := (s.port p).counters.txSent.bump } }
      (e.restartReply = false →
        exec (.frameSent dt (.alone p)) s = .next (freed true) ∧
        ∃ t, exec (.frameSent dt (.withRefill p)) s = .next t ∧ t = refill (freed false) p ∧ s.tables.ReadsOnly t.tables ∧
          t.port p =
            { s.port p with
              line := .idle, quietFrom := s.now + dt, queue := (t.port p).queue, sentBytes := 0, refillOwed := false
              counters := { (s.port p).counters with txSent := (s.port p).counters.txSent.bump } } ∧
          t = { (({ s with now := s.now + dt } : State).setPort p (t.port p)) with tables := t.tables, lamps := { s.lamps with pods := t.lamps.pods } } ∧
          (∀ P : Fin 12, t.lamps.pods[P] = { s.lamps.pods[P] with dirty := (t.lamps.pods[P]).dirty }) ∧
          ((∀ P : Fin 12, (s.lamps.pods[P]).dirty = false) → (t.port p).queue = rest ∧ t.tables = s.tables ∧ t.lamps = s.lamps)) ∧
      (e.restartReply = true → ∀ part : Freeing, part = .withRefill p ∨ part = .alone p →
        ∃ t, exec (.frameSent dt part) s = .next t ∧ s.tables.ReadsOnly t.tables ∧ t.SetUp ∧
          (t.port p).counters = { (s.port p).counters with txSent := (s.port p).counters.txSent.bump } ∧
          (t.port p.other).counters = (s.port p.other).counters ∧ t.power = .running ∧ t.straps = s.straps ∧
          t.nv = s.nv ∧ t.routes.routeMiss = s.routes.routeMiss ∧ t.routes.reportError = s.routes.reportError ∧
          t.events.edgeLost = s.events.edgeLost ∧ t.engine.chainFault = s.engine.chainFault ∧ t.engine.slotFull = s.engine.slotFull)) ∧
    ((s.port p).refillOwed = true →
      exec (.frameSent dt (.refill p)) s = .next (refill (({ s with now := s.now + dt } : State).setPort p { s.port p with refillOwed := false }) p)) ∧
    ((s.port p).refillOwed = false → exec (.frameSent dt (.refill p)) s = .next { s with now := s.now + dt })

/-- COLLISION: the head frame is abandoned and leaves the queue, TX-COLLIDE counts, the line is SKIPPING, and an abandoned LAMPCMD marks its pod dirty; then the port
refills (R16, R26, R29). Taken with its refill, the state is the refill of that. The pod of an abandoned LAMPCMD keeps its mark where its POD entry names the other port;
where it names this one with an address, the mark stays or a frame with the pod's current levels waits, and waits for certain when no lower pod is dirty and there is
room. With no dirty pod and no LAMPCMD abandoned the queue is the rest and nothing else changes. Taken alone, the mark stands, nothing else changes and the refill is
owed; the third form makes it (log 29). An abandoned RESTART reply makes the restart (R171, log 16). -/
def Obligations.CollisionAbandonsTheHead : Prop :=
  ∀ (dt : Time) (p : PortId) (s : State), s.power = .running →
    (∀ (e : QueueEntry) (rest : List QueueEntry), (s.port p).line = .transmitting → (s.port p).queue = e :: rest →
      let freed (owed : Bool) : State := ({ s with now := s.now + dt } : State).setPort p
        { s.port p with
          line := .skipping, quietFrom := s.now + dt, queue := rest, sentBytes := 0, refillOwed := owed
          counters := { (s.port p).counters with txCollide := (s.port p).counters.txCollide.bump } }
      let marked (owed : Bool) : State := match e.pod with
        | some P => (freed owed).updPod P fun r => { r with dirty := true }
        | none => freed owed
      (e.restartReply = false →
        exec (.collision dt (.alone p)) s = .next (marked true) ∧
        ∃ t, exec (.collision dt (.withRefill p)) s = .next t ∧ t = refill (marked false) p ∧ s.tables.ReadsOnly t.tables ∧
          t.port p =
            { s.port p with
              line := .skipping, quietFrom := s.now + dt, queue := (t.port p).queue, sentBytes := 0, refillOwed := false
              counters := { (s.port p).counters with txCollide := (s.port p).counters.txCollide.bump } } ∧
          t = { (({ s with now := s.now + dt } : State).setPort p (t.port p)) with tables := t.tables, lamps := { s.lamps with pods := t.lamps.pods } } ∧
          (∀ P : Fin 12, t.lamps.pods[P] = { s.lamps.pods[P] with dirty := (t.lamps.pods[P]).dirty }) ∧
          ((∀ P : Fin 12, (s.lamps.pods[P]).dirty = false) → e.pod = none → (t.port p).queue = rest ∧ t.tables = s.tables ∧ t.lamps = s.lamps) ∧
          ∀ P E, e.pod = some P → (s.tables.pod P).2 = some E →
            let waiting : Prop := ∃ x ∈ (t.port p).queue, x.pod = some P ∧ x.started = false ∧ x.frame.payload = lampPayload (s.lamps.pods[P]).levels
            (E.port ≠ p → (t.lamps.pods[P]).dirty = true) ∧
            (E.port = p → E.address ≠ 0 → ((t.lamps.pods[P]).dirty = true ∨ waiting) ∧
              ((∀ Q : Fin 12, (s.lamps.pods[Q]).dirty = true → P ≤ Q) → rest.length < 8 → waiting))) ∧
      (e.restartReply = true → ∀ part : Freeing, part = .withRefill p ∨ part = .alone p →
        ∃ t, exec (.collision dt part) s = .next t ∧ s.tables.ReadsOnly t.tables ∧ t.SetUp ∧
          (t.port p).counters = { (s.port p).counters with txCollide := (s.port p).counters.txCollide.bump } ∧
          (t.port p.other).counters = (s.port p.other).counters ∧ t.power = .running ∧ t.straps = s.straps ∧
          t.nv = s.nv ∧ t.routes.routeMiss = s.routes.routeMiss ∧ t.routes.reportError = s.routes.reportError ∧
          t.events.edgeLost = s.events.edgeLost ∧ t.engine.chainFault = s.engine.chainFault ∧ t.engine.slotFull = s.engine.slotFull)) ∧
    ((s.port p).refillOwed = true →
      exec (.collision dt (.refill p)) s = .next (refill (({ s with now := s.now + dt } : State).setPort p { s.port p with refillOwed := false }) p)) ∧
    ((s.port p).refillOwed = false → exec (.collision dt (.refill p)) s = .next { s with now := s.now + dt })

/-- R27: a copy or a reply offered to a queue of fewer than 8 frames is appended at the tail; at a queue of 8 it is dropped, a forwarded or
transit copy counting TX-DROP and a SERVICE-REPLY counting SERVICE-DROP on that port. -/
def Obligations.OfferedFrameIsAppendedOrDropped : Prop :=
  ∀ (q : Port) (f : Frame) (b : Bool),
    (q.queue.length < 8 → q.offerCopy f = { q with queue := q.queue ++ [⟨f, false, none, false⟩] } ∧
      q.offerReply f b = { q with queue := q.queue ++ [⟨f, false, none, b⟩] }) ∧
    (8 ≤ q.queue.length → q.offerCopy f = { q with counters := { q.counters with txDrop := q.counters.txDrop.bump } } ∧
      q.offerReply f b = { q with counters := { q.counters with serviceDrop := q.counters.serviceDrop.bump } })

/-- Coalescing of a LAMPCMD (R28): the payload of the not-started LAMPCMD for the pod is replaced in place and the entry keeps its place; with none
and room, the frame is appended; with none and a full queue, nothing is queued. A frame queued clears the dirty mark, a full queue sets it. -/
def Obligations.LampcmdCoalesces : Prop :=
  ∀ (s : State) (P : Fin 12) (e : PodEntry),
    let q := s.port e.port
    let f : Frame := ⟨e.address, s.hubAddress, 2, lampPayload (s.lamps.pods[P]).levels⟩
    (∀ a x b, q.queue = a ++ x :: b → (∀ y ∈ a, y.waitsFor P = false) → x.waitsFor P = true →
      offerLampcmd s P e =
        (s.setPort e.port { q with queue := a ++ { x with frame := { x.frame with payload := f.payload } } :: b }).updPod P
          fun r => { r with dirty := false }) ∧
    ((∀ y ∈ q.queue, y.waitsFor P = false) → q.queue.length < 8 →
      offerLampcmd s P e =
        (s.setPort e.port { q with queue := q.queue ++ [⟨f, false, some P, false⟩] }).updPod P fun r => { r with dirty := false }) ∧
    ((∀ y ∈ q.queue, y.waitsFor P = false) → 8 ≤ q.queue.length → offerLampcmd s P e = s.updPod P fun r => { r with dirty := true })

/-- The refill of a port (R29): it marks no pod dirty, touches no level, and leaves the other port alone; where it ends with room in the queue,
the pods still dirty are exactly those whose POD entry reads good and names the other port; and a dirty pod of this port that has lost its mark
has its current levels waiting in the queue. A dirty pod of this port that finds the queue full with no frame of its own to replace stays dirty, and so does every later
one. (That a pod of the other port keeps its mark whatever its address is log 15.) -/
def Obligations.RefillServesDirtyPods : Prop :=
  ∀ (s : State) (p : PortId),
    let t := refill s p
    t.port p.other = s.port p.other ∧ t.lamps.loads = s.lamps.loads ∧
      (∀ P : Fin 12, t.lamps.pods[P] = { s.lamps.pods[P] with dirty := (t.lamps.pods[P]).dirty } ∧
        ((t.lamps.pods[P]).dirty = true → (s.lamps.pods[P]).dirty = true)) ∧
      ((t.port p).queue.length < 8 → ∀ P : Fin 12, (t.lamps.pods[P]).dirty = true ↔
        (s.lamps.pods[P]).dirty = true ∧ ∃ e, (s.tables.pod P).2 = some e ∧ e.port ≠ p) ∧
      ∀ (P : Fin 12) (e : PodEntry), (s.lamps.pods[P]).dirty = true → (s.tables.pod P).2 = some e → e.port = p → e.address ≠ 0 →
        ((t.lamps.pods[P]).dirty = false →
          ∃ x ∈ (t.port p).queue, x.pod = some P ∧ x.started = false ∧ x.frame.payload = lampPayload (s.lamps.pods[P]).levels) ∧
        (8 ≤ (s.port p).queue.length → (∀ x ∈ (s.port p).queue, x.waitsFor P = false) →
          ∀ Q : Fin 12, P ≤ Q → (t.lamps.pods[Q]).dirty = (s.lamps.pods[Q]).dirty)

/-- TRANSIT_COPY: with the transit flag of its direction on, the frame is offered unchanged to the other port's queue; with it off, it is
discarded and no counter moves; in either case the pool is released (R24). -/
def Obligations.TransitFrameIsCopiedOrDiscarded : Prop :=
  ∀ (dt : Time) (p : PortId) (s : State) (f : Frame), s.Serves p .transit f →
    let flag := s.tables.peekParam (match p with
      | .front => .transitFrontRear
      | .rear => .transitRearFront)
    ∃ t, exec (.transitCopy dt p) s = .next t ∧ s.tables.ReadsOnly t.tables ∧
      (flag = 0 → t = { (({ s with now := s.now + dt } : State).setPort p (s.port p).release) with tables := t.tables }) ∧
      (flag ≠ 0 →
        t = { ((({ s with now := s.now + dt } : State).setPort p.other ((s.port p.other).offerCopy f)).setPort p (s.port p).release) with tables := t.tables })

/-- Every step keeps both ports in order: the queue within 8 frames with a started mark on the head alone and one waiting LAMPCMD a pod, at most one
pool SERVING and none HELD without it, and the first 22 bytes of the frame in progress kept (R19, R22, R23, R25). -/
def Obligations.StepKeepsPorts : Prop :=
  ∀ s t : State, (∀ p, QueueWf (s.port p).queue ∧ (s.port p).PoolsWf ∧ (s.port p).reception.Wf) → step s = .next t →
    ∀ p, QueueWf (t.port p).queue ∧ (t.port p).PoolsWf ∧ (t.port p).reception.Wf

/-! ## Routing -/

/-- ROUTE_WALK completes for every routed frame: its pool is released, and the part is unchanged outside the blocks a walk hands to. Of the
arrival port only pools and queue change, of the other only queue and TX-DROP; masks, in-service marks and the ignition input stand; of a
gauge only the target changes; and no reading reaches S0 to S3 (R34, R37, R45, R48). -/
def Obligations.RouteWalkReleasesItsPool : Prop :=
  ∀ (dt : Time) (p : PortId) (s : State) (f : Frame), s.Serves p .routed f →
    ∃ t, exec (.routeWalk dt p) s = .next t ∧ s.tables.ReadsOnly t.tables ∧
      t = { s with
            now := s.now + dt, tables := t.tables, front := t.front, rear := t.rear, routes := t.routes, events := t.events, lamps := t.lamps
            sampler := { s.sampler with descriptors := t.sampler.descriptors }, gauges := t.gauges } ∧
      t.port p = { (s.port p).release with queue := (t.port p).queue } ∧
      t.port p.other =
        { s.port p.other with
          queue := (t.port p.other).queue, counters := { (s.port p.other).counters with txDrop := (t.port p.other).counters.txDrop } } ∧
      (∀ c : Fin 32, (t.events.channels[c]).masked = (s.events.channels[c]).masked ∧ (t.events.channels[c]).inService = (s.events.channels[c]).inService) ∧
      t.events.rawIgnition = s.events.rawIgnition ∧ t.events.debounced = s.events.debounced ∧ t.events.debounceTimer = s.events.debounceTimer ∧
      (∀ g : Fin 4, t.gauges.gauges[g] = { s.gauges.gauges[g] with target := (t.gauges.gauges[g]).target }) ∧ t.gauges.fan = s.gauges.fan ∧
      ∀ d : Fin 16, d < 4 → t.sampler.descriptors[d] = s.sampler.descriptors[d]

/-- A frame is heard from its source exactly when its Directory slot reads good and admits its arrival port: then the source is HEARD and its watch
timer restarted or stopped by the period read, and a source that was SILENT is reported OPEN to its silence channel; otherwise its record stands. No other source is
touched. A wrong port, and a route head of NONE, count ROUTE-MISS; a failing slot counts PARITY alone (R38, R39, R40, R42, R52). The walk goes from entry to entry by
their links while their kinds differ from the frame's: a matching entry performs its action; a link of 0, a next entry outside 0 to 127 and a ninth entry end it with
ROUTE-MISS; and a failing entry ends it with PARITY alone (R41, R42, R43, R12). In each case the pool is released. -/
def Obligations.RoutedFrameIsHeardOrMissed : Prop :=
  (∀ (dt : Time) (p : PortId) (s : State) (f : Frame), s.Serves p .routed f →
    (∃ t, exec (.routeWalk dt p) s = .next t ∧
      (∀ a : Fin 64, a ≠ f.src → t.routes.sources[a] = s.routes.sources[a]) ∧
      (∀ e, (s.tables.directory f.src).2 = some e → e.home.admits p = true →
        t.routes.sources[f.src] = ⟨.heard, if e.watch = 0 then none else some (s.now + dt + e.watch * Config.ms500)⟩) ∧
      (∀ e, (s.tables.directory f.src).2 = some e → e.home.admits p = false →
        t = { (({ s with now := s.now + dt } : State).setPort p (s.port p).release) with
              routes := { s.routes with routeMiss := s.routes.routeMiss.bump } }) ∧
      (∀ e, (s.tables.directory f.src).2 = some e → e.home.admits p = true → e.head = none →
        t.routes.routeMiss = s.routes.routeMiss.bump ∧ t.routes.reportError = s.routes.reportError) ∧
      ((s.tables.directory f.src).2 = none →
        t = { (({ s with now := s.now + dt } : State).setPort p (s.port p).release) with tables := t.tables } ∧
          t.tables.parityCount = s.tables.parityCount.bump)) ∧
    ∀ e, (s.tables.directory f.src).2 = some e → e.home.admits p = true →
      let u := hear ({ s with now := s.now + dt } : State) f.src e
      let ends (v : State) : Prop := exec (.routeWalk dt p) s = .next (v.setPort p (v.port p).release)
      ∀ (i : Nat → Fin 128) (r : Nat → RouteEntry) (n : Nat), n ≤ 7 → e.head = some (i 0) →
        (∀ k < n, (s.tables.route (i k)).2 = some (r k) ∧ (r k).kind ≠ f.kind ∧ (r k).link ≠ 0 ∧ ((i (k + 1)).val : Int) = (i k).val + (r k).link) →
        (∀ x, (s.tables.route (i n)).2 = some x →
          (x.kind = f.kind → ends (performRoute u p x f)) ∧
          (x.kind ≠ f.kind → x.link = 0 ∨ n = 7 ∨ ((i n).val : Int) + x.link < 0 ∨ 127 < ((i n).val : Int) + x.link →
            ends { u with routes := { u.routes with routeMiss := u.routes.routeMiss.bump } })) ∧
        ((s.tables.route (i n)).2 = none → ends { u with tables := (u.tables.route (i n)).1 })) ∧
  ∀ (s : State) (src : Fin 64) (e : DirectoryEntry),
    let u := s.updSource src fun _ => ⟨.heard, if e.watch = 0 then none else some (s.now + e.watch * Config.ms500)⟩
    ((s.routes.sources[src]).heard ≠ .silent → hear s src e = u) ∧
    ((s.routes.sources[src]).heard = .silent → e.silence = none → hear s src e = u) ∧
    ∀ c, (s.routes.sources[src]).heard = .silent → e.silence = some c → hear s src e = reportLevel u c false

/-- A SWITCH entry (R44), matched first in its chain, gives each channel from its base on the level of its contact bit, for as many bits as its
count reads and the payload holds, up to E31; every other channel keeps its level. A SENDER entry (R45) gives each descriptor from its base on, S4 to S15 alone, its
reading, at most 1023, as one sample, for as many readings as its count reads and the payload holds whole; every other descriptor stands. Whatever the chain, the action
of a SWITCH entry is one level report for each such bit, and of a SENDER entry one sample for each such reading; the samples are taken in rising order by the model's
choice (log 30). -/
def Obligations.SwitchBitsReachChannels : Prop :=
  (∀ (dt : Time) (p : PortId) (s : State) (f : Frame) (e : DirectoryEntry) (i : Fin 128) (r : RouteEntry), s.Serves p .routed f →
    (s.tables.directory f.src).2 = some e → e.home.admits p = true → e.head = some i → (s.tables.route i).2 = some r → r.kind = f.kind →
    ∃ t, exec (.routeWalk dt p) s = .next t ∧
      ((s.routes.sources[f.src]).heard ≠ .silent → r.action = .switch → ∀ c : Fin 32, (t.events.channels[c]).level =
        if r.base ≤ c.val ∧ c.val < r.base + r.switchCount ∧ (c.val - r.base) / 8 < f.payload.length then
          (if (f.payload.getD ((c.val - r.base) / 8) 0#8).getLsbD ((c.val - r.base) % 8) then .isClosed else .isOpen)
        else (s.events.channels[c]).level) ∧
      (r.action = .sender → ∀ d : Fin 16, t.sampler.descriptors[d] =
        let j := d.val - r.base
        if 4 ≤ d.val ∧ r.base ≤ d.val ∧ j < r.senderCount ∧ 2 * j + 2 ≤ f.payload.length then
          match (s.tables.descriptor d).2 with
          | some e =>
            let a := (s.sampler.descriptors[d]).accept e (min 1023 (byteAt f.payload (2 * j) * 256 + byteAt f.payload (2 * j + 1))) (s.now + dt)
            if a.window = some a.held then a.complete e a.held else a
          | none => s.sampler.descriptors[d]
        else s.sampler.descriptors[d])) ∧
  ∀ (s : State) (p : PortId) (r : RouteEntry) (f : Frame), r.alsoForward = false →
    (r.action = .switch → performRoute s p r f =
      (List.range r.switchCount).foldl
        (fun s i =>
          if h : r.base + i < 32 then
            if i / 8 < f.payload.length then reportLevel s ⟨r.base + i, h⟩ ((f.payload.getD (i / 8) 0#8).getLsbD (i % 8)) else s
          else s)
        s) ∧
    (r.action = .sender → performRoute s p r f =
      (List.range r.senderCount).foldl
        (fun s j =>
          if h : r.base + j < 16 then
            if 4 ≤ r.base + j ∧ 2 * j + 2 ≤ f.payload.length then
              presentSample s ⟨r.base + j, h⟩ (min 1023 (byteAt f.payload (2 * j) * 256 + byteAt f.payload (2 * j + 1)))
            else s
          else s)
        s)

/-- FORWARD and DROP entries, matched first in their chain from a source that is not SILENT: FORWARD offers the other port a copy with the entry's
rewrite destination when that is not 0, and DROP makes none; the source is heard, the pool released, and nothing else changes (R47, R48). Whatever the chain, a SWITCH,
SENDER or REPORT entry whose also-forward flag is on performs its action and then offers the same copy, and FORWARD and DROP do not read the flag (R48). -/
def Obligations.ForwardCopiesAndDropDiscards : Prop :=
  (∀ (dt : Time) (p : PortId) (s : State) (f : Frame) (e : DirectoryEntry) (i : Fin 128) (r : RouteEntry), s.Serves p .routed f →
    (s.tables.directory f.src).2 = some e → e.home.admits p = true → (s.routes.sources[f.src]).heard ≠ .silent → e.head = some i →
    (s.tables.route i).2 = some r → r.kind = f.kind →
    let heard : State := ({ s with now := s.now + dt } : State).updSource f.src fun _ =>
      ⟨.heard, if e.watch = 0 then none else some (s.now + dt + e.watch * Config.ms500)⟩
    (r.action = .forward → exec (.routeWalk dt p) s =
      .next ((heard.setPort p.other ((s.port p.other).offerCopy ⟨if r.rewrite = 0 then f.dest else r.rewrite, f.src, f.kind, f.payload⟩)).setPort p
        (s.port p).release)) ∧
    (r.action = .drop → exec (.routeWalk dt p) s = .next (heard.setPort p (s.port p).release))) ∧
  ∀ (s : State) (p : PortId) (r : RouteEntry) (f : Frame),
    let u := performRoute s p { r with alsoForward := false } f
    (r.alsoForward = true → r.action = .switch ∨ r.action = .sender ∨ r.action = .report → performRoute s p r f =
      u.setPort p.other ((u.port p.other).offerCopy ⟨if r.rewrite = 0 then f.dest else r.rewrite, f.src, f.kind, f.payload⟩)) ∧
    (r.action = .forward ∨ r.action = .drop → performRoute s p r f = u)

/-- A REPORT entry, matched first in its chain (R46, R105): with a payload of 9 bytes and a pod record whose address is the source, the first such
pod becomes LIVE with its report timer restarted for three refresh periods and REPORT-ERROR stands; the 32 loads are judged one after another, and those whose trip
state has changed, and no other, are then resolved. Otherwise REPORT-ERROR counts once and no load and no pod record changes. -/
def Obligations.ReportReachesItsPod : Prop :=
  ∀ (dt : Time) (p : PortId) (s : State) (f : Frame) (e : DirectoryEntry) (i : Fin 128) (r : RouteEntry), s.Serves p .routed f →
    (s.tables.directory f.src).2 = some e → e.home.admits p = true → e.head = some i → (s.tables.route i).2 = some r →
    r.kind = f.kind → r.action = .report →
    ∃ t, exec (.routeWalk dt p) s = .next t ∧
      (∀ (P : Fin 12) (E : PodEntry), (s.tables.pod P).2 = some E → E.address = f.src → E.address ≠ 0 →
        (∀ Q : Fin 12, Q < P → ∀ E', (s.tables.pod Q).2 = some E' → E'.address ≠ f.src) → f.payload.length = 9 →
        let judged := ((List.finRange 32).foldl (judgeLoad (s.now + dt) P f.payload) (s.tables, s.lamps.loads, [])).2
        (t.lamps.pods[P]).state = .live ∧
          (t.lamps.pods[P]).report = some (s.now + dt + 3 * s.tables.peekParam .refreshPeriod * Config.ms500) ∧
          t.routes.reportError = s.routes.reportError ∧
          ∀ l : Fin 32, t.lamps.loads[l] =
            if l ∈ judged.2 then
              match (s.tables.load l).2 with
              | some e => (judged.1[l]).resolve (s.elapse dt).lampEnv false e
              | none => { judged.1[l] with effective := 0, current := 0, litSince := none }
            else judged.1[l]) ∧
      (f.payload.length ≠ 9 ∨ (∀ (P : Fin 12) (E : PodEntry), (s.tables.pod P).2 = some E → E.address = f.src → E.address = 0) →
        t.routes.reportError = s.routes.reportError.bump ∧ t.lamps = s.lamps)

/-- WATCH_EXPIRY stops the timer and acts by the watch period it reads: 1 to 15 makes the source SILENT and then reports CLOSED to the silence channel, as any
level report, or reports nothing where there is none; 0 leaves the heard state; and a failing read makes it SILENT with no report, PARITY counting once. Nothing
else changes (R10, R49, R52, R58). -/
def Obligations.WatchExpiryFindsSilence : Prop :=
  ∀ (dt : Time) (src : Fin 64) (s : State), s.power = .running → Due (s.routes.sources[src]).watch (s.now + dt) →
    let silent := ({ s with now := s.now + dt } : State).updSource src fun _ => ⟨.silent, none⟩
    ∃ t, exec (.watchExpiry dt src) s = .next t ∧ s.tables.ReadsOnly t.tables ∧
      t = { s with now := s.now + dt, tables := t.tables, events := t.events, routes := { s.routes with sources := t.routes.sources } } ∧
      (∀ a : Fin 64, a ≠ src → t.routes.sources[a] = s.routes.sources[a]) ∧
      (∀ e, (s.tables.directory src).2 = some e → e.watch ≠ 0 → t.routes.sources[src] = ⟨.silent, none⟩ ∧
        (∀ c, e.silence = some c → t = reportLevel silent c true ∧ (t.events.channels[c]).level = .isClosed) ∧ (e.silence = none → t = silent)) ∧
      (∀ e, (s.tables.directory src).2 = some e → e.watch = 0 →
        t = ({ s with now := s.now + dt } : State).updSource src fun x => { x with watch := none }) ∧
      ((s.tables.directory src).2 = none → t = silent.withTables (s.tables.directory src).1 ∧ t.tables.parityCount = s.tables.parityCount.bump)

/-! ## Events -/

/-- One level report at a channel (R58 to R61): a report equal to the level does nothing; from UNKNOWN a report of OPEN sets the level and makes no
edge; any other change makes an edge, judged by enable and edge select as read, and an accepted edge becomes the pending edge, EDGE-LOST
counting when it replaces one. A failing entry accepts nothing. -/
def Obligations.LevelReportMakesEdges : Prop :=
  ∀ (s : State) (c : Fin 32) (closed : Bool),
    let ch := s.events.channels[c]
    let level : ChannelLevel := if closed then .isClosed else .isOpen
    let edge : Edge := if closed then .closing else .opening
    let takes (e : EventEntry) : Prop := e.enable = true ∧ (e.select = .both ∨ (closed = true ∧ e.select = .closing) ∨ (closed = false ∧ e.select = .opening))
    (ch.level = level → reportLevel s c closed = s) ∧
    (ch.level = .unknown → closed = false → reportLevel s c closed = s.updChannel c fun x => { x with level := .isOpen }) ∧
    (ch.level ≠ level → (ch.level = .unknown → closed = true) →
      (∀ e, (s.tables.event c).2 = some e → takes e →
        reportLevel s c closed =
          { (s.updChannel c fun x => { x with level := level, pending := some edge }) with
            events :=
              { (s.updChannel c fun x => { x with level := level, pending := some edge }).events with
                edgeLost := if ch.pending = none then s.events.edgeLost else s.events.edgeLost.bump, choiceMade := false } }) ∧
      (∀ e, (s.tables.event c).2 = some e → ¬takes e → reportLevel s c closed = s.updChannel c fun x => { x with level := level }) ∧
      ((s.tables.event c).2 = none →
        reportLevel s c closed = (s.updChannel c fun x => { x with level := level }).withTables (s.tables.event c).1))

/-- IGNITION_INPUT_CHANGE starts the 20 ms debounce timer anew; IGNITION_DEBOUNCE_EXPIRY stops it and, where the debounced level is unset or differs,
takes the raw level and reports it to E31, on as CLOSED and off as OPEN; where it equals the raw level nothing is reported (R57). -/
def Obligations.IgnitionIsDebounced : Prop :=
  (∀ (dt : Time) (on : Bool) (s : State), s.power = .running → s.events.rawIgnition ≠ on →
    exec (.ignitionInputChange dt on) s =
      .next { s with now := s.now + dt, events := { s.events with rawIgnition := on, debounceTimer := some (s.now + dt + 20000) } }) ∧
  ∀ (dt : Time) (s : State), s.power = .running → Due s.events.debounceTimer (s.now + dt) →
    exec (.ignitionDebounceExpiry dt) s =
      if s.events.debounced = some s.events.rawIgnition then
        .next { s with now := s.now + dt, events := { s.events with debounceTimer := none } }
      else
        .next (reportLevel
          { s with now := s.now + dt, events := { s.events with debounceTimer := none, debounced := some s.events.rawIgnition } } 31
          s.events.rawIgnition)

/-! ## The action engine -/

/-- ACTION_TAKE (R64, R67, R72, R73, R74): with no slot DUE and a choice called for, the highest-numbered eligible channel is taken. A pending unmasked channel above it
whose EVENT entry fails loses its pending edge, and the engine goes on (R64, R12); the entries read are those of the pending unmasked channels, from E31 down to the
one taken, and PARITY counts once for each that fails (R10). The taken channel's pending edge is cleared, and no other channel's
pending edge and no level changes; a chain in service is cancelled, its slot freed and its mark cleared (R74); a head of NONE ends the walk at once; a head is
walked as the channel's chain. Outside the blocks a walk's changes reach, the part is unchanged. With a slot DUE, or no channel eligible, no channel is taken. That
a choice is made only when something has called for one since the last that found nothing, and the mark that says so, are log 20's. -/
def Obligations.ActionTakeTakesHighestEligible : Prop :=
  (∀ (dt : Time) (s : State) (c : Fin 32) (edge : Edge) (e : EventEntry), s.power = .running → (∀ k : Fin 4, (s.engine.slots[k]).state ≠ .due) →
    s.events.choiceMade = false →
    (∀ d : Fin 32, c < d → (s.events.channels[d]).pending = none ∨ (s.events.channels[d]).masked = true ∨ (s.tables.event d).2 = none ∨
      ∃ e', (s.tables.event d).2 = some e' ∧ (e'.enable = false ∨ ((s.events.channels[d]).inService = true ∧ e'.policy = .queue))) →
    (s.events.channels[c]).pending = some edge → (s.events.channels[c]).masked = false → (s.tables.event c).2 = some e → e.enable = true →
    ((s.events.channels[c]).inService = false ∨ e.policy = .restart) →
    let asks (d : Fin 32) : Bool := (s.events.channels[d]).pending.isSome && !(s.events.channels[d]).masked
    ∃ t u : State, exec (.actionTake dt) s = .next t ∧ s.tables.ReadsOnly t.tables ∧
      t = { s with
            now := s.now + dt, tables := t.tables, front := { s.front with queue := t.front.queue }, rear := { s.rear with queue := t.rear.queue }
            events := t.events, engine := t.engine, lamps := t.lamps, flasher := t.flasher, gauges := t.gauges } ∧
      s.tables.ReadsOnly u.tables ∧
      u = { s with now := s.now + dt, tables := u.tables, events := { s.events with channels := u.events.channels } } ∧
      (∀ d : Fin 32, u.events.channels[d] =
        if c < d ∧ (s.events.channels[d]).masked = false ∧ (s.tables.event d).2 = none then { s.events.channels[d] with pending := none }
        else s.events.channels[d]) ∧
      u.tables = (((List.finRange 32).reverse.filter fun d => decide (c < d) && asks d)).foldl (fun x d => (x.event d).1) s.tables ∧
      u.tables.parityCount.toNat = min 65535 (s.tables.parityCount.toNat +
        (List.finRange 32).countP fun d => decide (c < d) && asks d && (s.tables.event d).2.isNone) ∧
      (t.events.channels[c]).pending = none ∧ (∀ d : Fin 32, d ≠ c → (t.events.channels[d]).pending = (u.events.channels[d]).pending) ∧
      (∀ d : Fin 32, (t.events.channels[d]).level = (s.events.channels[d]).level) ∧ t.events.edgeLost = s.events.edgeLost ∧
      let taken := u.updChannel c fun x => { x with pending := none }
      let ready := if (s.events.channels[c]).inService then cancelChain taken c else taken
      (e.head edge = none → t = ready.callChoice) ∧ ∀ i, e.head edge = some i → t = runWalk ⟨c, none⟩ i ready) ∧
  (∀ (s : State) (c : Fin 32),
    let t := cancelChain s c
    t = { s with engine := { s.engine with slots := t.engine.slots }, events := { s.events with channels := t.events.channels } } ∧
      (∀ k : Fin 4, t.engine.slots[k] =
        if (s.engine.slots[k]).state ≠ .free ∧ (s.engine.slots[k]).channel = c then { s.engine.slots[k] with state := .free, timer := none }
        else s.engine.slots[k]) ∧
      ∀ d : Fin 32, t.events.channels[d] = if d = c then { s.events.channels[d] with inService := false } else s.events.channels[d]) ∧
  ∀ (dt : Time) (s : State), s.power = .running →
    ((∃ k : Fin 4, (s.engine.slots[k]).state = .due) → exec (.actionTake dt) s = .next { s with now := s.now + dt }) ∧
    ((∀ k : Fin 4, (s.engine.slots[k]).state ≠ .due) → s.events.choiceMade = false →
      (∀ d : Fin 32, (s.events.channels[d]).pending = none ∨ (s.events.channels[d]).masked = true) →
      exec (.actionTake dt) s = .next { s with now := s.now + dt, events := { s.events with choiceMade := true } }) ∧
    ((∀ k : Fin 4, (s.engine.slots[k]).state ≠ .due) → s.events.choiceMade = false →
      (∀ d : Fin 32, (s.events.channels[d]).pending = none ∨ (s.events.channels[d]).masked = true ∨ (s.tables.event d).2 = none ∨
        ∃ e', (s.tables.event d).2 = some e' ∧ (e'.enable = false ∨ ((s.events.channels[d]).inService = true ∧ e'.policy = .queue))) →
      let asks (d : Fin 32) : Bool := (s.events.channels[d]).pending.isSome && !(s.events.channels[d]).masked
      ∃ u, exec (.actionTake dt) s = .next u ∧ s.tables.ReadsOnly u.tables ∧
        u.tables = ((List.finRange 32).reverse.filter asks).foldl (fun x d => (x.event d).1) s.tables ∧
        u.tables.parityCount.toNat = min 65535 (s.tables.parityCount.toNat +
          (List.finRange 32).countP fun d => asks d && (s.tables.event d).2.isNone) ∧
        u = { s with now := s.now + dt, tables := u.tables, events := { s.events with channels := u.events.channels, choiceMade := true } } ∧
        ∀ d : Fin 32, u.events.channels[d] =
          if (s.events.channels[d]).masked = false ∧ (s.tables.event d).2 = none then { s.events.channels[d] with pending := none }
          else s.events.channels[d])

/-- WAIT_EXPIRY makes a SUSPENDED slot DUE with its timer stopped, and with it every other SUSPENDED slot whose wait has come to its end: waits that expire together become
DUE together. CHAIN_RESUME resumes the lowest DUE slot, so that they resume in slot order: at END the slot becomes FREE, keeping its channel and next entry,
and the channel's in-service mark clears; otherwise its chain is walked from the next entry with a fresh budget (R71, R72, R89). -/
def Obligations.WaitsExpireAndResume : Prop :=
  (∀ (dt : Time) (k : Fin 4) (s : State), s.power = .running → (s.engine.slots[k]).state = .suspended →
    Due (s.engine.slots[k]).timer (s.now + dt) →
    ∃ t, exec (.waitExpiry dt k) s = .next t ∧
      t = { s with now := s.now + dt, engine := { s.engine with slots := t.engine.slots }, events := { s.events with choiceMade := false } } ∧
      ∀ j : Fin 4,
        ((s.engine.slots[j]).state = .suspended ∧ Due (s.engine.slots[j]).timer (s.now + dt) →
          t.engine.slots[j] = { s.engine.slots[j] with state := .due, timer := none }) ∧
        (¬((s.engine.slots[j]).state = .suspended ∧ Due (s.engine.slots[j]).timer (s.now + dt)) → t.engine.slots[j] = s.engine.slots[j])) ∧
  ∀ (dt : Time) (k : Fin 4) (s : State), s.power = .running → (s.engine.slots[k]).state = .due →
    (∀ j : Fin 4, j < k → (s.engine.slots[j]).state ≠ .due) →
    ∃ t, exec (.chainResume dt) s = .next t ∧ s.tables.ReadsOnly t.tables ∧
      t = { s with
            now := s.now + dt, tables := t.tables, front := { s.front with queue := t.front.queue }, rear := { s.rear with queue := t.rear.queue }
            events := t.events, engine := t.engine, lamps := t.lamps, flasher := t.flasher, gauges := t.gauges } ∧
      (∀ d : Fin 32, (t.events.channels[d]).pending = (s.events.channels[d]).pending ∧ (t.events.channels[d]).level = (s.events.channels[d]).level) ∧
      ((s.engine.slots[k]).next = none →
        t = ((({ s with now := s.now + dt } : State).updSlot k fun x => { x with state := .free, timer := none }).updChannel (s.engine.slots[k]).channel
          fun x => { x with inService := false }).callChoice) ∧
      ∀ i, (s.engine.slots[k]).next = some i → t = runWalk ⟨(s.engine.slots[k]).channel, some k⟩ i { s with now := s.now + dt }

/-- What the operations do when a walk performs them, and what they leave (R81 to R86, R184). -/
def Obligations.OperationsChangeWhatTheyName : Prop :=
  ∀ s : State,
    (∀ (l : Fin 32) (v : Fin 16) (r : Bool), perform (.setLoad l v r) s = s.updLoad l fun x => { x with requested := v, ramp := r }) ∧
    (∀ (m n : Fin 16), (perform (.setMode m .set) s).mode m = true ∧ (perform (.setMode m .clear) s).mode m = false ∧
      (perform (.setMode m .toggle) s).mode m = !s.mode m ∧
      (m ≠ n → ∀ c, (perform (.setMode m c) s).mode n = s.mode n) ∧
      ∀ c, perform (.setMode m c) s = { s with engine := { s.engine with modes := (perform (.setMode m c) s).engine.modes } }) ∧
    (∀ r, perform (.indicate r) s = { s with engine := { s.engine with indicate := r } }) ∧
    (∀ c m, perform (.mask c m) s = s.updChannel c fun x => { x with masked := m }) ∧
    (∀ n : Fin 8, perform (.fan .set n) s = { s with engine := { s.engine with fanRequest := n } } ∧
      perform (.fan .up n) s = { s with engine := { s.engine with fanRequest := Fin.ofNat 8 (min 7 (s.engine.fanRequest.val + 1)) } } ∧
      perform (.fan .down n) s = { s with engine := { s.engine with fanRequest := Fin.ofNat 8 (s.engine.fanRequest.val - 1) } }) ∧
    (∀ m b o, perform (.testMode m b o) s = s ∧ testHolds (.testMode m b o) s = if s.mode m = b then some o else none) ∧
    (∀ c b o, perform (.testLevel c b o) s = s ∧
      testHolds (.testLevel c b o) s = if (b = true ↔ (s.events.channels[c]).level = .isClosed) then some o else none) ∧
    perform .unnamed s = s

/-- A walk as a command makes it: from its first entry with 32 entries to read (R78), its group of changes then reaching the other blocks (R76), and a choice called for at its
end (R72; the mark that says so is log 20's). One entry of a walk. An entry that is no WAIT is performed, and the walk goes to the target of the test that holds, or of its link: 0 ends the chain, an entry within 0 to
255 is walked on with one entry less to read, and any other target is a walk fault (R76, R77, R86). A failing entry ends the chain with PARITY counted and nothing of it
performed (R80, R12). With no entry left to read the walk faults, so that a walk reads at most 32 (R78). A walk fault counts CHAIN-FAULT, and frees the slot of a resumed
chain with its channel's in-service mark, as every end does (R71, R79, R89). A WAIT suspends the chain in the slot it was resumed from, or else in the lowest FREE slot, with its
channel, its next entry and its timer, and the channel is in-service; a link target outside 0 to 255 is a walk fault. With no slot it is skipped: SLOT-FULL counts and
the walk goes on to its link (R87, R88). -/
def Obligations.WalksFaultAndSuspend : Prop :=
  (∀ (s : State) (ch : Chain) (i : Fin 256),
      let u := commitGroup s (walk ch 32 i s)
      runWalk ch i s = { u with events := { u.events with choiceMade := false } }) ∧
  (∀ (s : State) (ch : Chain) (f : Nat → Fin 256),
      (∀ k < 32, ∃ e, (s.tables.action (f k)).2 = some e ∧ e.op = .unnamed ∧ onward (f k) e.link = .goto (f (k + 1))) →
      walk ch 32 (f 0) s = faultChain ch s) ∧
  (∀ (s : State) (c : Fin 32), endChain ⟨c, none⟩ s = s ∧
    faultChain ⟨c, none⟩ s = { s with engine := { s.engine with chainFault := s.engine.chainFault.bump } }) ∧
  (∀ (s : State) (c : Fin 32) (k : Fin 4),
    let ended (u : State) : State := (u.updSlot k fun x => { x with state := .free, timer := none }).updChannel c fun x => { x with inService := false }
    endChain ⟨c, some k⟩ s = ended s ∧
    faultChain ⟨c, some k⟩ s = ended { s with engine := { s.engine with chainFault := s.engine.chainFault.bump } }) ∧
  (∀ (s : State) (c : Fin 32) (k : Fin 4), availableSlot ⟨c, some k⟩ s = some k ∧
    (availableSlot ⟨c, none⟩ s = some k ↔ (s.engine.slots[k]).state = .free ∧ ∀ j : Fin 4, j < k → (s.engine.slots[j]).state ≠ .free)) ∧
  (∀ (s : State) (ch : Chain) (i : Fin 256), walk ch 0 i s = faultChain ch s) ∧
  (∀ (s : State) (ch : Chain) (n : Nat) (i : Fin 256), (s.tables.action i).2 = none →
    walk ch (n + 1) i s = endChain ch (s.withTables (s.tables.action i).1)) ∧
  (∀ (s : State) (ch : Chain) (n : Nat) (i : Fin 256) (e : ActionEntry), (s.tables.action i).2 = some e → (∀ time, e.op ≠ .wait time) →
    let u := perform e.op s
    let offset := (testHolds e.op s).getD e.link
    (offset = 0 → walk ch (n + 1) i s = endChain ch u) ∧
    (∀ j : Fin 256, offset ≠ 0 → (j.val : Int) = i.val + offset → walk ch (n + 1) i s = walk ch n j u) ∧
    ((i.val : Int) + offset < 0 ∨ 255 < (i.val : Int) + offset → walk ch (n + 1) i s = faultChain ch u)) ∧
  ∀ (s : State) (ch : Chain) (n : Nat) (i : Fin 256) (time : Nat) (link : Int), (s.tables.action i).2 = some ⟨.wait time, link⟩ →
    (∀ k, availableSlot ch s = some k →
      (link = 0 → walk ch (n + 1) i s =
        (s.updSlot k fun _ => ⟨.suspended, ch.channel, none, some (s.now + time * Config.ms100)⟩).updChannel ch.channel fun x => { x with inService := true }) ∧
      (∀ j : Fin 256, link ≠ 0 → (j.val : Int) = i.val + link → walk ch (n + 1) i s =
        (s.updSlot k fun _ => ⟨.suspended, ch.channel, some j, some (s.now + time * Config.ms100)⟩).updChannel ch.channel fun x => { x with inService := true }) ∧
      ((i.val : Int) + link < 0 ∨ 255 < (i.val : Int) + link → walk ch (n + 1) i s =
        faultChain ch s)) ∧
    (availableSlot ch s = none →
      let u : State := { s with engine := { s.engine with slotFull := s.engine.slotFull.bump } }
      (link = 0 → walk ch (n + 1) i s = u) ∧
      (∀ j : Fin 256, link ≠ 0 → (j.val : Int) = i.val + link → walk ch (n + 1) i s = walk ch n j u) ∧
      ((i.val : Int) + link < 0 ∨ 255 < (i.val : Int) + link → walk ch (n + 1) i s = faultChain ch u))

/-- What a walk's group of changes does when it reaches the other blocks (R76, R94, R116, R118, R119, R120, R121, R143), from the state before the walk
to the state it leaves: a clearing of IGNITION zeroes gauges and fan; the flasher starts LIT when a side now flashes and it was IDLE, stops when none does and it
was not, and otherwise stands; all loads are resolved once, against the new sides and the new phase, when a request, a ramp flag, M0 to M2, the indicate
request or the flasher's state has changed, and otherwise no load, pod or queue changes. That a load whose LOAD entry fails takes current level 0, whatever its kind,
is log 14. -/
def Obligations.GroupReachesTheBlocks : Prop :=
  ∀ before s : State,
    let t := commitGroup before s
    let flashes : Prop := s.mode 1 = true ∨ (s.mode 0 = true ∧ s.engine.indicate ≠ none)
    let counted (l : Fin 32) : Prop := ∃ e, (s.tables.load l).2 = some e ∧ e.pod ≠ none ∧ (e.kind = .indicator ∨ e.kind = .stopTurn) ∧
      s.lampEnv.flashing e.side = true ∧ ((s.lamps.loads[l]).proof = .degraded ∨ (s.lamps.loads[l]).proof = .isOpen)
    let changed : Prop := (∃ l : Fin 32, (before.lamps.loads[l]).requested ≠ (s.lamps.loads[l]).requested ∨
        (before.lamps.loads[l]).ramp ≠ (s.lamps.loads[l]).ramp) ∨ before.mode 0 ≠ s.mode 0 ∨ before.mode 1 ≠ s.mode 1 ∨ before.mode 2 ≠ s.mode 2 ∨
      before.engine.indicate ≠ s.engine.indicate ∨ t.flasher.state ≠ s.flasher.state
    s.tables.ReadsOnly t.tables ∧
      t = { s with
            tables := t.tables, front := { s.front with queue := t.front.queue }, rear := { s.rear with queue := t.rear.queue }, lamps := t.lamps
            flasher := t.flasher, gauges := t.gauges } ∧
      (before.mode 0 = true ∧ s.mode 0 = false → t.gauges.updateTimer = s.gauges.updateTimer ∧ t.gauges.fan = ⟨0, 0, false, false⟩ ∧
        ∀ g : Fin 4, t.gauges.gauges[g] = ⟨(s.gauges.gauges[g]).target, 0, 0, false, (s.gauges.gauges[g]).stale, false⟩) ∧
      (before.mode 0 = false ∨ s.mode 0 = true → t.gauges = s.gauges) ∧
      (flashes → s.flasher.state = .idle →
        t.flasher.state = .lit ∧ t.flasher.tick = some (s.now + 10000) ∧ t.flasher.loaded = t.flasher.counter ∧
          ((∃ l, counted l) → t.flasher.rate = .fast ∧ t.flasher.counter = (s.tables.peekParam .litLength + 1) / 2) ∧
          ((∀ l, ¬counted l) → t.flasher.rate = .normal ∧ t.flasher.counter = s.tables.peekParam .litLength)) ∧
      (¬flashes → s.flasher.state ≠ .idle → t.flasher = ⟨.idle, 0, 0, s.flasher.rate, none⟩) ∧
      ((flashes ↔ s.flasher.state ≠ .idle) → t.flasher = s.flasher) ∧
      (changed → (∀ l : Fin 32, t.lamps.loads[l] =
          match (s.tables.load l).2 with
          | some e => (s.lamps.loads[l]).resolve t.lampEnv false e
          | none => { s.lamps.loads[l] with effective := 0, current := 0, litSince := none }) ∧
        ∃ u, s.tables.ReadsOnly u.tables ∧ u = { s with tables := u.tables, flasher := t.flasher, gauges := t.gauges } ∧
          t = resolveLoads u false (List.finRange 32)) ∧
      (¬changed → t.lamps = s.lamps ∧ t.front = s.front ∧ t.rear = s.rear)

/-- Every step keeps R71: a channel is in-service exactly when a slot holds a chain for it, at most one slot for any channel, and a wait timer runs exactly
in a SUSPENDED slot. -/
def Obligations.StepKeepsSlots : Prop := ∀ s t : State, s.SlotsWf → step s = .next t → t.SlotsWf

/-! ## Loads and lamp pods -/

/-- LOAD_FADE_EXPIRY resolves, with a fade step, each load whose ramp flag is on and whose current level differs from its request, and no other load;
COOL_OFF_EXPIRY makes a COOLING load NORMAL, stops its timer, keeps its retry count and resolves that load (R94, R98, R109, R12). The fade timer goes on every 100 ms,
from its moment and not from a late command (log 3); a load whose LOAD entry fails takes current level 0, whatever its kind (log 14). A resolution of any loads
changes those loads, and then merges the twelve pods in pod-table order; nothing changes outside the load block, the queues and the reads. A pod's merged level for an
output is the highest effective level of the loads bound to it, or 0; where its levels change it takes them and one LAMPCMD is produced: offered by coalescing to
the port its POD entry names (R28), or, where the entry fails or its address reads 0, no frame is built and the dirty mark goes (R101, R102). -/
def Obligations.FadeAndCoolOffResolve : Prop :=
  (∀ (dt : Time) (s : State), s.power = .running → s.lamps.fadeTimer ≤ s.now + dt →
    ∃ t, exec (.loadFadeExpiry dt) s = .next t ∧ s.tables.ReadsOnly t.tables ∧
      t = { s with
            now := s.now + dt, tables := t.tables, front := { s.front with queue := t.front.queue }, rear := { s.rear with queue := t.rear.queue }
            lamps := t.lamps } ∧
      t = resolveLoads { s with now := s.now + dt, lamps := { s.lamps with fadeTimer := s.lamps.fadeTimer + 100000 } } true
        ((List.finRange 32).filter fun l => (s.lamps.loads[l]).ramp && decide ((s.lamps.loads[l]).current ≠ (s.lamps.loads[l]).requested)) ∧
      t.lamps.fadeTimer = s.lamps.fadeTimer + 100000 ∧
      ∀ l : Fin 32, t.lamps.loads[l] =
        if (s.lamps.loads[l]).ramp = true ∧ (s.lamps.loads[l]).current ≠ (s.lamps.loads[l]).requested then
          match (s.tables.load l).2 with
          | some e => (s.lamps.loads[l]).resolve (s.elapse dt).lampEnv true e
          | none => { s.lamps.loads[l] with effective := 0, current := 0, litSince := none }
        else s.lamps.loads[l]) ∧
  (∀ (dt : Time) (l : Fin 32) (s : State), s.power = .running → Due (s.lamps.loads[l]).coolOff (s.now + dt) →
    let r : LoadRecord :=
      { s.lamps.loads[l] with coolOff := none, trip := if (s.lamps.loads[l]).trip = .cooling then .normal else (s.lamps.loads[l]).trip }
    ∃ t, exec (.coolOffExpiry dt l) s = .next t ∧ s.tables.ReadsOnly t.tables ∧
      t = { s with
            now := s.now + dt, tables := t.tables, front := { s.front with queue := t.front.queue }, rear := { s.rear with queue := t.rear.queue }
            lamps := t.lamps } ∧
      t = resolveLoads (({ s with now := s.now + dt } : State).updLoad l fun _ => r) false [l] ∧
      (∀ k : Fin 32, k ≠ l → t.lamps.loads[k] = s.lamps.loads[k]) ∧
      t.lamps.loads[l] =
        match (s.tables.load l).2 with
        | some e => r.resolve (s.elapse dt).lampEnv false e
        | none => { r with effective := 0, current := 0, litSince := none }) ∧
  (∀ (s : State) (fade : Bool) (ls : List (Fin 32)),
    let t := resolveLoads s fade ls
    (∃ u, s.tables.ReadsOnly u.tables ∧ u = { s with tables := u.tables, lamps := { s.lamps with loads := t.lamps.loads } } ∧
      t = (List.finRange 12).foldl mergePod u) ∧
    (∀ l, l ∉ ls → t.lamps.loads[l] = s.lamps.loads[l]) ∧ t.lamps.fadeTimer = s.lamps.fadeTimer ∧
    (∀ P : Fin 12, t.lamps.pods[P] =
      { s.lamps.pods[P] with levels := mergedLevels t.lamps.loads P, dirty := (t.lamps.pods[P]).dirty }) ∧
    s.tables.ReadsOnly t.tables ∧
    t = { s with
          tables := t.tables, front := { s.front with queue := t.front.queue }, rear := { s.rear with queue := t.rear.queue }, lamps := t.lamps }) ∧
  ∀ (s : State) (P : Fin 12),
    let m := mergedLevels s.lamps.loads P
    let u := s.updPod P fun x => { x with levels := m }
    (∀ k : Fin 8, (∀ l : Fin 32, (s.lamps.loads[l]).binding = some (P, k) → (s.lamps.loads[l]).effective ≤ m[k]) ∧
      (m[k] = 0 ∨ ∃ l : Fin 32, (s.lamps.loads[l]).binding = some (P, k) ∧ m[k] = (s.lamps.loads[l]).effective)) ∧
    (m = (s.lamps.pods[P]).levels → mergePod s P = s) ∧
    (m ≠ (s.lamps.pods[P]).levels →
      (∀ e, (s.tables.pod P).2 = some e → e.address ≠ 0 → mergePod s P = offerLampcmd u P e) ∧
      (∀ e, (s.tables.pod P).2 = some e → e.address = 0 → mergePod s P = u.updPod P fun x => { x with dirty := false }) ∧
      ((s.tables.pod P).2 = none → mergePod s P = (u.withTables (s.tables.pod P).1).updPod P fun x => { x with dirty := false }))

/-- REFRESH_EXPIRY restarts the pod's refresh timer with the period as read, resolves no load, and produces a LAMPCMD of the pod's last commanded levels:
with an entry that reads good and an address that is not 0 it is offered by coalescing to the entry's port. A LAMPCMD of the pod waiting there takes the levels in
its place and no entry is used; with none and room the frame is appended; with none and a full queue no frame is queued and the pod is marked dirty. The other port's queue
stands. With a failing entry or an address of 0 no frame is built and the dirty mark goes. The entries read are the pod's and the period's. No other pod record
changes (R28, R102, R103). REPORT_TIMER_EXPIRY makes the pod SILENT, stops its timer and sets the proof status of every load bound to it UNKNOWN; nothing else
changes (R104). -/
def Obligations.PodTimersExpire : Prop :=
  (∀ (dt : Time) (P : Fin 12) (s : State), s.power = .running → Due (s.lamps.pods[P]).refresh (s.now + dt) →
      let restarted (u : State) : State :=
        (u.updPod P fun x => { x with refresh := some (s.now + dt + s.tables.peekParam .refreshPeriod * Config.ms500) }).withTables
          ((s.tables.pod P).1.param .refreshPeriod).1
      let s1 : State := { s with now := s.now + dt }
      let unbuilt := restarted (s1.updPod P fun x => { x with dirty := false })
      ∃ t, exec (.refreshExpiry dt P) s = .next t ∧ s.tables.ReadsOnly t.tables ∧
        t = { s with
              now := s.now + dt, tables := t.tables, front := { s.front with queue := t.front.queue }, rear := { s.rear with queue := t.rear.queue }
              lamps := { s.lamps with pods := t.lamps.pods } } ∧
        (∀ Q : Fin 12, Q ≠ P → t.lamps.pods[Q] = s.lamps.pods[Q]) ∧
        t.lamps.pods[P] =
          { s.lamps.pods[P] with
            dirty := (t.lamps.pods[P]).dirty, refresh := some (s.now + dt + s.tables.peekParam .refreshPeriod * Config.ms500) } ∧
        ((s.tables.pod P).2 = none → t = unbuilt) ∧
        ∀ e, (s.tables.pod P).2 = some e → (e.address = 0 → t = unbuilt) ∧ (e.address ≠ 0 →
          let q := (s.port e.port).queue
          let levels := lampPayload (s.lamps.pods[P]).levels
          t = restarted (offerLampcmd s1 P e) ∧ t.port e.port.other = s.port e.port.other ∧
          (∀ a x b, q = a ++ x :: b → (∀ y ∈ a, y.waitsFor P = false) → x.waitsFor P = true → (t.lamps.pods[P]).dirty = false ∧
            (t.port e.port).queue = a ++ { x with frame := { x.frame with payload := levels } } :: b) ∧
          ((∀ x ∈ q, x.waitsFor P = false) → q.length < 8 → (t.lamps.pods[P]).dirty = false ∧
            (t.port e.port).queue = q ++ [⟨⟨e.address, s.hubAddress, 2, levels⟩, false, some P, false⟩]) ∧
          ((∀ x ∈ q, x.waitsFor P = false) → 8 ≤ q.length → (t.lamps.pods[P]).dirty = true ∧ t.port e.port = s.port e.port))) ∧
  ∀ (dt : Time) (P : Fin 12) (s : State), s.power = .running → Due (s.lamps.pods[P]).report (s.now + dt) →
    ∃ t, exec (.reportTimerExpiry dt P) s = .next t ∧ t = { s with now := s.now + dt, lamps := { s.lamps with loads := t.lamps.loads, pods := t.lamps.pods } } ∧
      (∀ Q : Fin 12, Q ≠ P → t.lamps.pods[Q] = s.lamps.pods[Q]) ∧
      t.lamps.pods[P] = { s.lamps.pods[P] with state := .silent, report := none } ∧
      ∀ l : Fin 32, t.lamps.loads[l] =
        if (s.lamps.loads[l]).binding.map (·.1) = some P then { s.lamps.loads[l] with proof := .unknown } else s.lamps.loads[l]

/-- The good resolution of a load: binding, demand and its fall, gates, effective level by kind, current level, and lit-since (R95 to R99, R110). -/
def Obligations.ResolutionFollowsTheKind : Prop :=
  ∀ (v : LampEnv) (fade : Bool) (e : LoadEntry) (r : LoadRecord),
    let n := r.resolve v fade e
    let flashing (sd : Option Side) : Prop := (sd = some .left ∨ sd = some .right) ∧ (v.hazard = true ∨ (v.ignition = true ∧ v.indicate = sd))
    let either := flashing (some .left) ∨ flashing (some .right)
    let gate := n.binding = none ∨ n.trip ≠ .normal ∨ ((e.kind = .plain ∨ e.kind = .stop) ∧ e.policy = .drop ∧ v.ignition = false)
    n.requested = r.requested ∧ n.ramp = r.ramp ∧ n.binding = e.pod.map (fun P => (P, e.output)) ∧
    n.proof = (if n.binding = r.binding then r.proof else .unknown) ∧
    (n.demand = true ↔
      match e.kind with
      | .plain => r.requested ≠ 0
      | .stop => v.brake = true
      | .indicator => flashing e.side
      | .stopTurn => flashing e.side ∨ v.brake = true
      | .repeater => either) ∧
    (r.demand = true ∧ n.demand = false → n.trip = .normal ∧ n.retry = 0 ∧ n.coolOff = none) ∧
    (¬(r.demand = true ∧ n.demand = false) → n.trip = r.trip ∧ n.retry = r.retry ∧ n.coolOff = r.coolOff) ∧
    (gate → n.effective = 0 ∧ (e.kind = .plain → n.current = 0)) ∧
    (¬gate →
      match e.kind with
      | .plain => n.effective = n.current ∧ (r.ramp = false → n.current = r.requested) ∧
          (r.ramp = true → fade = false → n.current = r.current) ∧
          (r.ramp = true → fade = true →
            (r.current < r.requested → n.current.val = r.current.val + 1) ∧ (r.requested < r.current → n.current.val + 1 = r.current.val) ∧
              (r.current = r.requested → n.current = r.current))
      | .stop => (v.brake = true → n.effective = 15) ∧ (v.brake = false → n.effective = 0)
      | .indicator => (flashing e.side ∧ v.lit = true → n.effective = 15) ∧ (¬(flashing e.side ∧ v.lit = true) → n.effective = 0)
      | .stopTurn => (flashing e.side → (v.lit = true → n.effective = 15) ∧ (v.lit = false → n.effective = 0)) ∧
          (¬flashing e.side → (v.brake = true → n.effective = 15) ∧ (v.brake = false → n.effective = 0))
      | .repeater => (either ∧ v.lit = true → n.effective = 15) ∧ (¬(either ∧ v.lit = true) → n.effective = 0)) ∧
    (e.kind ≠ .plain → n.current = r.requested) ∧
    (n.effective ≠ 15 → n.litSince = none) ∧
    (n.effective = 15 → n.litSince = if n.binding = r.binding then some (r.litSince.getD v.now) else some v.now)

/-- A report judges a load bound to its pod (R105 to R108): flagged, lit and NORMAL, the load trips, LATCHED when its count has reached the retry limit as read
and COOLING with its timer otherwise; not tripped, at level 15 for the proving delay, its current gives its proof status, and PROVEN or DEGRADED
clears the count; otherwise nothing changes. No other load changes, and a failing entry changes nothing (R12). -/
def Obligations.ReportTripsAndProves : Prop :=
  ∀ (now : Time) (P : Fin 12) (payload : List Byte) (t : TableStore) (v : Vector LoadRecord 32) (c : List (Fin 32)) (l : Fin 32) (k : Fin 8),
    (v[l]).binding = some (P, k) → ((t.load l).2 = none → (judgeLoad now P payload (t, v, c) l).2 = (v, c)) ∧
    ∀ e : LoadEntry, (t.load l).2 = some e →
    let w := (judgeLoad now P payload (t, v, c) l).2
    let r := v[l]
    let trips := (payload.getD 0 0#8).getLsbD k.val = true ∧ 0 < r.effective ∧ r.trip = .normal
    let filaments := (byteAt payload (1 + k.val) + e.current / 2) / e.current
    (∀ j : Fin 32, j ≠ l → w.1[j] = v[j]) ∧
    (trips → w.2 = c ++ [l] ∧
      w.1[l] =
        if t.peekParam .retryLimit ≤ r.retry + 1 then { r with retry := r.retry + 1, trip := .latched }
        else { r with retry := r.retry + 1, trip := .cooling, coolOff := some (now + t.peekParam .coolOff * Config.ms100) }) ∧
    (¬trips → w.2 = c ∧
      (∀ since, r.litSince = some since → r.effective = 15 → since + t.peekParam .provingDelay * Config.ms10 ≤ now →
        w.1[l] =
          if e.bulbs ≤ filaments then { r with proof := .proven, retry := 0 }
          else if filaments = 0 then { r with proof := .isOpen }
          else { r with proof := .degraded, retry := 0 }) ∧
      (r.litSince = none ∨ r.effective ≠ 15 ∨ (∃ since, r.litSince = some since ∧ now < since + t.peekParam .provingDelay * Config.ms10) →
        w.1[l] = r))

/-- Every step keeps every load record within R96, R99, R106 and R109: the retry count 0 to 7; effective level 0 while unconfigured, COOLING or LATCHED; a
cool-off timer exactly while COOLING; lit-since exactly at level 15. -/
def Obligations.StepKeepsLoads : Prop :=
  ∀ s t : State, (∀ l : Fin 32, (s.lamps.loads[l]).Wf) → step s = .next t → ∀ l : Fin 32, (t.lamps.loads[l]).Wf

/-- Every step keeps each pod's last commanded levels equal to the highest effective levels of the loads bound to its outputs (R101). -/
def Obligations.StepKeepsPodsMerged : Prop := ∀ s t : State, s.PodsMerged → step s = .next t → t.PodsMerged

/-! ## Flasher -/

/-- FLASHER_TICK (R115, R117, R121, R122): above 1 the counter goes down by 1 and nothing else changes; at 1 the next phase starts with the rate judged and the
length read and adjusted, and all loads are resolved. Nothing changes outside flasher, load block, queues and reads. The tick goes on every 10 ms from its moment and not
from a late command (log 3); a load whose LOAD entry fails takes current level 0, whatever its kind (log 14). -/
def Obligations.FlasherTickCountsDown : Prop :=
  ∀ (dt : Time) (s : State) (d : Time), s.power = .running → s.flasher.state ≠ .idle → s.flasher.tick = some d → d ≤ s.now + dt →
    (1 < s.flasher.counter → exec (.flasherTick dt) s =
      .next { s with now := s.now + dt, flasher := { s.flasher with counter := s.flasher.counter - 1, tick := some (d + 10000) } }) ∧
    (s.flasher.counter = 1 →
      let counted (l : Fin 32) : Prop := ∃ e, (s.tables.load l).2 = some e ∧ e.pod ≠ none ∧ (e.kind = .indicator ∨ e.kind = .stopTurn) ∧
        s.lampEnv.flashing e.side = true ∧ ((s.lamps.loads[l]).proof = .degraded ∨ (s.lamps.loads[l]).proof = .isOpen)
      ∃ t n, exec (.flasherTick dt) s = .next t ∧ s.tables.ReadsOnly t.tables ∧
        t = { s with
              now := s.now + dt, tables := t.tables, front := { s.front with queue := t.front.queue }, rear := { s.rear with queue := t.rear.queue }
              lamps := t.lamps, flasher := t.flasher } ∧
        (∃ u, s.tables.ReadsOnly u.tables ∧ u = { s with now := s.now + dt, tables := u.tables, flasher := t.flasher } ∧
          t = resolveLoads u false (List.finRange 32)) ∧
        n = s.tables.peekParam (if s.flasher.state = .lit then .darkLength else .litLength) ∧
        t.flasher.state = (if s.flasher.state = .lit then .dark else .lit) ∧ t.flasher.tick = some (d + 10000) ∧
        ((∃ l, counted l) → t.flasher.rate = .fast ∧ t.flasher.counter = (n + 1) / 2) ∧
        ((∀ l, ¬counted l) → t.flasher.rate = .normal ∧ t.flasher.counter = n) ∧ t.flasher.loaded = t.flasher.counter ∧
        ∀ l : Fin 32, t.lamps.loads[l] =
          match (s.tables.load l).2 with
          | some e => (s.lamps.loads[l]).resolve { (s.elapse dt).lampEnv with lit := s.flasher.state != .lit } false e
          | none => { s.lamps.loads[l] with effective := 0, current := 0, litSince := none })

/-- Every step keeps the flasher running exactly while a side is flashing, its counter within its loaded length of 1 to 255 ticks (R114 to R118). -/
def Obligations.StepKeepsFlasher : Prop := ∀ s t : State, s.FlasherWf → step s = .next t → t.FlasherWf

/-! ## Sampler -/

/-- CONVERSION presents each code to its own descriptor, and the timer goes on every 20 ms (R127, R128): a good entry takes the sample, and the window completes
when it is full; a failing entry discards it (R12). S4 to S15 are untouched, and of a gauge only the target changes. That the four presentations are taken from S0 to S3 is
the model's choice (log 31). A sample joins its window: the window is fixed at the first sample, the sum and the count take it, stale clears and the stale timer
restarts with the period read, or stops at 0 (R132, R136); a full window of N samples of sum Σ gives the average floor((Σ + floor(N / 2)) / N) and empties (R133). A sample
that leaves its window unfilled changes its record alone. One that fills it goes on: a changed threshold state is reported to the entry's channel, ACTIVE as CLOSED and
INACTIVE as OPEN (R135), and each gauge whose entry names the descriptor takes the deflection its curve gives for the average as its target (R133, R144). -/
def Obligations.ConversionSamplesLocalInputs : Prop :=
  (∀ (dt : Time) (c0 c1 c2 c3 : BitVec 10) (s : State), s.power = .running → s.sampler.conversionTimer ≤ s.now + dt →
      ∃ t, exec (.conversion dt c0 c1 c2 c3) s = .next t ∧ s.tables.ReadsOnly t.tables ∧
        t = { s with
              now := s.now + dt, tables := t.tables, events := t.events
              sampler := { s.sampler with descriptors := t.sampler.descriptors, conversionTimer := s.sampler.conversionTimer + 20000 }, gauges := t.gauges } ∧
        t = [((0 : Fin 16), c0), (1, c1), (2, c2), (3, c3)].foldl (fun s x => presentSample s x.1 x.2.toNat)
          { s with now := s.now + dt, sampler := { s.sampler with conversionTimer := s.sampler.conversionTimer + 20000 } } ∧
        (∀ g : Fin 4, t.gauges.gauges[g] = { s.gauges.gauges[g] with target := (t.gauges.gauges[g]).target }) ∧ t.gauges.fan = s.gauges.fan ∧
        (∀ d : Fin 16, 4 ≤ d → t.sampler.descriptors[d] = s.sampler.descriptors[d]) ∧
        ∀ (d : Fin 16) (code : BitVec 10), (d, code) ∈ [((0 : Fin 16), c0), (1, c1), (2, c2), (3, c3)] →
          (∀ e, (s.tables.descriptor d).2 = some e →
            let a := (s.sampler.descriptors[d]).accept e code.toNat (s.now + dt)
            t.sampler.descriptors[d] = if a.window = some a.held then a.complete e a.held else a) ∧
          ((s.tables.descriptor d).2 = none → t.sampler.descriptors[d] = s.sampler.descriptors[d])) ∧
  (∀ (r : DescriptorRecord) (e : DescriptorEntry) (code n : Nat) (now : Time),
    r.accept e code now =
      ⟨r.held + 1, r.sum + code, if r.held = 0 then some e.window else r.window, r.average, r.threshold, false,
        if e.stale = 0 then none else some (now + e.stale * Config.ms500)⟩ ∧
    (r.complete e n).held = 0 ∧ (r.complete e n).sum = 0 ∧ (r.complete e n).window = none ∧ (r.complete e n).average = some ((r.sum + n / 2) / n) ∧
    (r.complete e n).stale = r.stale ∧ (r.complete e n).staleTimer = r.staleTimer) ∧
  ∀ (s : State) (d : Fin 16) (code : Nat),
    ((s.tables.descriptor d).2 = none → presentSample s d code = s.withTables (s.tables.descriptor d).1) ∧
    ∀ e, (s.tables.descriptor d).2 = some e →
      let a := (s.sampler.descriptors[d]).accept e code s.now
      let c := a.complete e a.held
      let done := s.updDescriptor d fun _ => c
      let t := presentSample s d code
      (a.window ≠ some a.held → t = s.updDescriptor d fun _ => a) ∧
      (a.window = some a.held → ∃ told : State,
        (c.threshold = a.threshold ∨ e.channel = none → told = done) ∧
        (∀ ch, c.threshold ≠ a.threshold → e.channel = some ch → told = reportLevel done ch (decide (c.threshold = .active))) ∧
        told.tables.ReadsOnly t.tables ∧ t = { told with tables := t.tables, gauges := t.gauges } ∧ t.gauges.fan = s.gauges.fan ∧
        t.gauges.updateTimer = s.gauges.updateTimer ∧
        ∀ g : Fin 4, t.gauges.gauges[g] =
          { s.gauges.gauges[g] with
            target := ((s.tables.gauge g).2.bind fun x =>
                if x.source = .descriptor d then (s.tables.curve x.curve).2.map (·.eval ((a.sum + a.held / 2) / a.held)) else none).getD
              (s.gauges.gauges[g]).target })

/-- R134: the threshold state after a window whose average is A, by the sense, the threshold T and the hysteresis h of the completing sample's entry; in every
case the table does not list, the state stays. -/
def Obligations.ThresholdHasHysteresis : Prop :=
  ∀ (r : DescriptorRecord) (e : DescriptorEntry) (n : Nat), e.threshold ≤ 1023 →
    let A := (r.sum + n / 2) / n
    let after := (r.complete e n).threshold
    A ≤ 1023 →
    (e.sense = .above →
      (r.threshold ≠ .active → (e.threshold ≤ A → after = .active) ∧ (A < e.threshold → after = .inactive)) ∧
      (r.threshold = .active → ((A : Int) < max 0 ((e.threshold : Int) - e.hysteresis) → after = .inactive) ∧
        (max 0 ((e.threshold : Int) - e.hysteresis) ≤ A → after = .active))) ∧
    (e.sense = .below →
      (r.threshold ≠ .active → (A ≤ e.threshold → after = .active) ∧ (e.threshold < A → after = .inactive)) ∧
      (r.threshold = .active → (min 1023 (e.threshold + e.hysteresis) < A → after = .inactive) ∧
        (A ≤ min 1023 (e.threshold + e.hysteresis) → after = .active)))

/-- STALE_EXPIRY sets stale, stops the timer and discards the window in progress, keeping average and threshold state, and reads no entry (R136). COIL_PULSE
counts a pulse at least 1 ms after the last counted one, staying at 1023, and ignores any other (R139). Nothing else changes. -/
def Obligations.StaleExpiryAndCoilPulse : Prop :=
  (∀ (dt : Time) (d : Fin 16) (s : State), s.power = .running → Due (s.sampler.descriptors[d]).staleTimer (s.now + dt) →
    exec (.staleExpiry dt d) s = .next (({ s with now := s.now + dt } : State).updDescriptor d fun r =>
      ⟨0, 0, none, r.average, r.threshold, true, none⟩)) ∧
  ∀ (dt : Time) (s : State), s.power = .running →
    (s.sampler.lastPulse = none ∨ (∃ u, s.sampler.lastPulse = some u ∧ u + 1000 ≤ s.now + dt) →
      exec (.coilPulse dt) s =
        .next { s with now := s.now + dt, sampler := { s.sampler with gateCount := min 1023 (s.sampler.gateCount + 1), lastPulse := some (s.now + dt) } }) ∧
    ((∃ u, s.sampler.lastPulse = some u ∧ s.now + dt < u + 1000) → exec (.coilPulse dt) s = .next { s with now := s.now + dt })

/-- GATE_EXPIRY: the tach value becomes floor(p × 30 / c), at most 1023, with c the cylinders as read; the count is 0 again, the last counted pulse is kept, the
timer goes on every 500 ms, and each gauge of source TACH whose entry and curve read good takes the curve's deflection as its target; no other target
changes (R140, R144). -/
def Obligations.GateGivesTachValue : Prop :=
  ∀ (dt : Time) (s : State), s.power = .running → s.sampler.gateTimer ≤ s.now + dt →
    let v := min 1023 (s.sampler.gateCount * 30 / s.tables.peekParam .cylinders)
    ∃ t, exec (.gateExpiry dt) s = .next t ∧ s.tables.ReadsOnly t.tables ∧
      t = { s with
            now := s.now + dt, tables := t.tables
            sampler := { s.sampler with tach := some v, gateCount := 0, gateTimer := s.sampler.gateTimer + 500000 }, gauges := t.gauges } ∧
      t.gauges.fan = s.gauges.fan ∧ t.gauges.updateTimer = s.gauges.updateTimer ∧
      ∀ g : Fin 4, t.gauges.gauges[g] =
        { s.gauges.gauges[g] with
          target := ((s.tables.gauge g).2.bind fun e => if e.source = .tach then (s.tables.curve e.curve).2.map (·.eval v) else none).getD (s.gauges.gauges[g]).target }

/-- Every step keeps each descriptor within R130 and R132: fewer samples held than its window of 1 to 16, and a sum of at most 1023 for each sample held. -/
def Obligations.StepKeepsDescriptors : Prop :=
  ∀ s t : State, (∀ d : Fin 16, (s.sampler.descriptors[d]).Wf) → step s = .next t → ∀ d : Fin 16, (t.sampler.descriptors[d]).Wf

/-! ## Gauges and fan -/

/-- GAUGE_UPDATE (R138, R143, R147, R148, R152, R153, R154): while IGNITION is clear all deflections, duties, HELD and UNDERSUPPLIED become 0 and clear, and targets and
STALE stand; while it is set each gauge with a good entry is driven by its kind and the fan takes a ramp step, a supply below 600 freezing both, and
a failing entry leaving its record. The timer goes on every 100 ms, and nothing outside the gauge drive changes. A value moves to its target where the two differ by no more
than the step, and else by the step; a duty is its kind's quotient rounded half up, at most 1024 with UNDERSUPPLIED for more; the fan's fraction for level 0 is 0 and for
level n the word of GAUGE index 20 + n, at most 1000. -/
def Obligations.GaugeUpdateDrivesGauges : Prop :=
  (∀ (dt : Time) (s : State), s.power = .running → s.gauges.updateTimer ≤ s.now + dt →
    let vs := match (s.sampler.descriptors[(0 : Fin 16)]).average with
      | some a => 2 * a
      | none => s.tables.peekParam .gaugeReference
    let stale (o : GaugeSource) : Bool := match o with
      | .descriptor d => (s.sampler.descriptors[d]).stale
      | .tach => false
    ∃ t, exec (.gaugeUpdate dt) s = .next t ∧ s.tables.ReadsOnly t.tables ∧
      t = { s with now := s.now + dt, tables := t.tables, gauges := t.gauges } ∧ t.gauges.updateTimer = s.gauges.updateTimer + 100000 ∧
      (s.ignition = false → t.tables = s.tables ∧ t.gauges.fan = ⟨0, 0, false, false⟩ ∧
        ∀ g : Fin 4, t.gauges.gauges[g] = ⟨(s.gauges.gauges[g]).target, 0, 0, false, (s.gauges.gauges[g]).stale, false⟩) ∧
      (s.ignition = true →
        (∀ g : Fin 4,
          let r := s.gauges.gauges[g]
          t.gauges.gauges[g] =
            match (s.tables.gauge g).2 with
            | none => r
            | some e =>
              if e.kind = .off then ⟨r.target, 0, 0, false, false, false⟩
              else if vs < 600 then { r with stale := stale e.source, held := true }
              else
                let h := approach r.deflection r.target e.slew
                let d := gaugeDuty e.kind h vs (s.tables.peekParam .gaugeReference)
                ⟨r.target, h, d.1, d.2, stale e.source, false⟩) ∧
        t.gauges.fan =
          match s.tables.fan.2 with
          | none => s.gauges.fan
          | some e =>
            if e.on = false then ⟨0, 0, false, false⟩
            else if vs < 600 then { s.gauges.fan with held := true }
            else
              let level := if s.shed then min s.engine.fanRequest.val (s.tables.peekParam .shedCap) else s.engine.fanRequest.val
              let f := approach s.gauges.fan.fraction (e.fraction level) (s.tables.peekParam .fanRampStep)
              let d := fanDuty f vs (s.tables.peekParam .fanReference)
              ⟨f, d.1, d.2, false⟩)) ∧
  (∀ v target step : Nat,
    (v ≤ target → target - v ≤ step → approach v target step = target) ∧ (target < v → v - target ≤ step → approach v target step = target) ∧
    (v + step < target → approach v target step = v + step) ∧ (target + step < v → approach v target step = v - step)) ∧
  (∀ h vs vref : Nat,
    let duty (num den : Nat) : Nat × Bool := (min 1024 ((2 * num + den) / (2 * den)), decide (1024 < (2 * num + den) / (2 * den)))
    gaugeDuty .thermal h vs vref = duty (h * 1024 * vref * vref) (1000 * vs * vs) ∧ gaugeDuty .coil h vs vref = duty (h * 1024 * vref) (1000 * vs) ∧
      fanDuty h vs vref = duty (h * 1024 * vref) (1000 * vs)) ∧
  ∀ (t : TableStore) (e : FanEntry), t.fan.2 = some e →
    e.on = (t.word (address .gauge 16)).data.getLsbD 0 ∧ e.fraction 0 = 0 ∧
      ∀ n, 1 ≤ n → n ≤ 7 → e.fraction n = min 1000 (t.word (address .gauge (20 + n))).data.toNat

/-- R146: the deflection a curve gives for a reading, step by step, over the points used. -/
def Obligations.CurveIsInterpolated : Prop :=
  ∀ (c : Curve) (x : Nat), 2 ≤ c.points.length → (∀ q ∈ c.points, q.1 ≤ 1023 ∧ q.2 ≤ 1000) → x ≤ 1023 →
    let px (i : Nat) : Nat := (c.points.getD i (0, 0)).1
    let py (i : Nat) : Nat := (c.points.getD i (0, 0)).2
    let last := c.points.length - 1
    (x ≤ px 0 → c.eval x = py 0) ∧
    (px 0 < x → px last ≤ x → c.eval x = py last) ∧
    (px 0 < x → x < px last →
      ∀ i, i < last → (∀ j < i, px j < px (j + 1) ∧ px (j + 1) ≤ x) →
        (px (i + 1) ≤ px i → c.eval x = py i) ∧
        (px i < px (i + 1) → x < px (i + 1) →
          (c.eval x : Int) = min 1000 (max 0 ((py i : Int) + (((x : Int) - px i) * ((py (i + 1) : Int) - py i)).tdiv ((px (i + 1) : Int) - px i))))) ∧
    c.eval x ≤ 1000

/-- Every step keeps the gauge drive within its ranges, and at 0 while IGNITION is clear (R142, R143, R151). -/
def Obligations.StepKeepsGauges : Prop :=
  ∀ s t : State, s.gauges.Bounded → (s.ignition = false → s.gauges.AtRest) → step s = .next t →
    t.gauges.Bounded ∧ (t.ignition = false → t.gauges.AtRest)

/-! ## Service requests -/

/-- IDENTIFY is answered DONE in every state of the service engine with the part code 640, revision 1, hub address, straps, table source, TABLE-FAULT, the count of
marked words and the service state, and changes nothing else. In STORING and RESTARTING every other request whose code and length are allowed is answered BUSY
and not performed; a request whose code or length is not allowed is answered BAD-REQUEST in every state, an empty one with the code byte 0xFF. The codes and the lengths allowed
are those of the tables of R159 and R182, and an allowed payload reads as its request with its operands, two bytes high byte first (R159, R160, R161, R182). -/
def Obligations.RequestsAreJudgedInOrder : Prop :=
  (∀ (dt : Time) (p : PortId) (s : State) (f : Frame), s.Serves p .serviceRequest f → f.payload = [1#8] →
      let straps : Byte := BitVec.ofNat 8 ((if s.straps.earth = .negative then 1 else 0) + (if s.straps.limp = .combined then 2 else 0))
      let source : Byte := match s.tables.source with
        | .nv => 0#8
        | .limp => 1#8
        | .modified => 2#8
      let fault : Byte := if s.tables.tableFault then 1#8 else 0#8
      let n := s.tables.marked.length
      let state : Byte := match s.service with
        | .idle => 0#8
        | .storing _ _ _ => 1#8
        | .restarting => 2#8
      exec (.identify dt p) s = .next (({ s with now := s.now + dt } : State).setPort p ((s.port p).replied
        ⟨f.src, s.hubAddress, 5,
          [1#8, 0#8, 0x02#8, 0x80#8, 1#8, BitVec.ofNat 8 s.hubAddress.val, straps, source, fault, BitVec.ofNat 8 (n / 256), BitVec.ofNat 8 n, state]⟩))) ∧
  (∀ (c : Instr) (p : PortId) (s : State) (f : Frame) (r : Request), s.Serves p .serviceRequest f → decodeRequest f.payload = some r → s.service ≠ .idle →
    (match c, r with
      | .readTable _ q, .readTable _ _ _ => q = p
      | .writeTable _ q, .writeTable _ _ _ => q = p
      | .readState _ q, .readState _ _ => q = p
      | .readCounters _ q, .readCounters _ _ => q = p
      | .clearLatch _ q, .clearLatch _ => q = p
      | .store _ q, .store => q = p
      | .loadLimp _ q, .loadLimp _ => q = p
      | .restart _ q, .restart => q = p
      | _, _ => False) →
    exec c s = .next (({ s with now := s.now + c.elapsed } : State).setPort p ((s.port p).replied
      ⟨f.src, s.hubAddress, 5, [f.payload.headD 0xFF#8, 4#8]⟩))) ∧
  (∀ (dt : Time) (p : PortId) (s : State) (f : Frame), s.Serves p .serviceRequest f → decodeRequest f.payload = none →
    exec (.badRequest dt p) s = .next (({ s with now := s.now + dt } : State).setPort p ((s.port p).replied
      ⟨f.src, s.hubAddress, 5, [f.payload.headD 0xFF#8, 1#8]⟩))) ∧
  decodeRequest [] = none ∧
  (∀ (code : Byte) (operands : List Byte),
    let n := operands.length + 1
    (decodeRequest (code :: operands)).isSome = true ↔
      (code = 1#8 ∧ n = 1) ∨ (code = 2#8 ∧ n = 5) ∨ (code = 3#8 ∧ 6 ≤ n ∧ n ≤ 16 ∧ n % 2 = 0) ∨ (code = 4#8 ∧ n = 3) ∨ (code = 5#8 ∧ n = 3) ∨
        (code = 6#8 ∧ n = 2) ∨ (code = 7#8 ∧ n = 1) ∨ (code = 8#8 ∧ n = 2) ∨ (code = 9#8 ∧ n = 1)) ∧
  ∀ (a hi lo b : Byte) (ws : List Word16),
    let index := hi.toNat * 256 + lo.toNat
    decodeRequest [1#8] = some .identify ∧ decodeRequest [2#8, a, hi, lo, b] = some (.readTable a index b.toNat) ∧
      (1 ≤ ws.length → ws.length ≤ 6 →
        decodeRequest (3#8 :: a :: hi :: lo :: ws.flatMap fun w => [BitVec.ofNat 8 (w.toNat / 256), BitVec.ofNat 8 w.toNat]) = some (.writeTable a index ws)) ∧
      decodeRequest [4#8, a, b] = some (.readState a.toNat b.toNat) ∧ decodeRequest [5#8, a, b] = some (.readCounters a.toNat b.toNat) ∧
      decodeRequest [6#8, a] = some (.clearLatch a.toNat) ∧ decodeRequest [7#8] = some .store ∧
      decodeRequest [8#8, a] = some (.loadLimp a.toNat) ∧ decodeRequest [9#8] = some .restart

/-- READ-TABLE returns the words asked for with a parity flag for each, and READ-STATE the record it names; an operand out of range gives BAD-RANGE. Both change
nothing but the reply and the release: no mark, no PARITY count, no record (R11, R162, R163). The records are sent field by field as R182 lays them out, an object above 10
and an index outside its object's range naming none; the index of MODES, FLASHER, TACH and FAN is not read (R35, R54, R70, R71, R112, R126, R138, R141, R152, R156). The bytes
of a pending edge and of the indicate request are log 13's. -/
def Obligations.ReadsChangeNothing : Prop :=
  (∀ (dt : Time) (p : PortId) (s : State) (f : Frame) (area hi lo n : Byte), s.Serves p .serviceRequest f → s.service = .idle →
    f.payload = [2#8, area, hi, lo, n] →
    let next (bytes : List Byte) : Result := .next (({ s with now := s.now + dt } : State).setPort p ((s.port p).replied ⟨f.src, s.hubAddress, 5, bytes⟩))
    let index := hi.toNat * 256 + lo.toNat
    (∀ a, Area.ofByte area = some a → 1 ≤ n.toNat → n.toNat ≤ 6 → index + n.toNat - 1 < a.words →
      exec (.readTable dt p) s = next (2#8 :: 0#8 ::
        BitVec.ofNat 8 (parityFlags ((List.range' (a.base + index) n.toNat).map s.tables.word)) ::
          (List.range' (a.base + index) n.toNat).flatMap fun w =>
            [BitVec.ofNat 8 ((s.tables.word w).data.toNat / 256), BitVec.ofNat 8 (s.tables.word w).data.toNat])) ∧
    ((Area.ofByte area = none ∨ n.toNat = 0 ∨ 6 < n.toNat ∨ ∃ a, Area.ofByte area = some a ∧ a.words ≤ index + n.toNat - 1) →
      exec (.readTable dt p) s = next [2#8, 2#8])) ∧
  (∀ (dt : Time) (p : PortId) (s : State) (f : Frame) (o i : Byte), s.Serves p .serviceRequest f → s.service = .idle → f.payload = [4#8, o, i] →
    let next (bytes : List Byte) : Result := .next (({ s with now := s.now + dt } : State).setPort p ((s.port p).replied ⟨f.src, s.hubAddress, 5, bytes⟩))
    exec (.readState dt p) s =
      match recordOf { s with now := s.now + dt } o.toNat i.toNat with
      | some data => next (4#8 :: 0#8 :: data)
      | none => next [4#8, 2#8]) ∧
  (∀ (s : State) (o i : Nat), recordOf s o i = none ↔
    10 < o ∨ (o = 0 ∧ 64 ≤ i) ∨ (o = 1 ∧ 32 ≤ i) ∨ (o = 2 ∧ 4 ≤ i) ∨ (o = 4 ∧ 32 ≤ i) ∨ (o = 5 ∧ 12 ≤ i) ∨ (o = 7 ∧ 16 ≤ i) ∨ (o = 9 ∧ 4 ≤ i)) ∧
  ∀ s : State,
    let one (n : Nat) : List Byte := [BitVec.ofNat 8 n]
    let two (n : Nat) : List Byte := [BitVec.ofNat 8 (n / 256), BitVec.ofNat 8 n]
    let flag (b : Bool) : List Byte := one (if b then 1 else 0)
    let left (timer : Option Time) (unit : Time) : Nat := match timer with
      | some t => (t - s.now + (unit - 1)) / unit
      | none => 0
    let supply := match (s.sampler.descriptors[(0 : Fin 16)]).average with
      | some a => 2 * a
      | none => s.tables.peekParam .gaugeReference
    (∀ a : Fin 64, let x := s.routes.sources[a]
      recordOf s 0 a.val = some (one (match x.heard with
        | .unheard => 0
        | .heard => 1
        | .silent => 2) ++ two (if x.watch = none then 0xFFFF else left x.watch 10000))) ∧
    (∀ c : Fin 32, let x := s.events.channels[c]
      recordOf s 1 c.val = some (one (match x.level with
        | .unknown => 0
        | .isOpen => 1
        | .isClosed => 2) ++ one (match x.pending with
        | none => 0xFF
        | some .closing => 1
        | some .opening => 2) ++ flag x.masked ++ flag x.inService)) ∧
    (∀ k : Fin 4, let x := s.engine.slots[k]
      recordOf s 2 k.val = some (one (match x.state with
        | .free => 0
        | .suspended => 1
        | .due => 2) ++ one x.channel.val ++ two (match x.next with
        | some i => i.val
        | none => 0xFFFF) ++ two (if x.state = .suspended then left x.timer 100000 else 0))) ∧
    (∀ i, ∃ m : BitVec 16, (∀ k : Fin 16, m.getLsbD k.val = s.mode k) ∧
      recordOf s 3 i = some (two m.toNat ++ one (match s.engine.indicate with
        | some .left => 0
        | some .right => 1
        | none => 0xFF) ++ one s.engine.fanRequest.val)) ∧
    (∀ l : Fin 32, let x := s.lamps.loads[l]
      recordOf s 4 l.val = some (one x.requested.val ++ flag x.ramp ++ one x.current.val ++ one x.effective.val ++ flag x.demand ++
        one (match x.binding with
        | some (P, k) => P.val * 16 + k.val
        | none => 0xFF) ++ one (match x.proof with
        | .unknown => 0
        | .proven => 1
        | .degraded => 2
        | .isOpen => 3) ++ one (match x.trip with
        | .normal => 0
        | .cooling => 1
        | .latched => 2) ++ one x.retry ++ two (left x.coolOff 100000) ++ two (match x.litSince with
        | some t => min 65535 ((s.now - t) / 10000)
        | none => 0))) ∧
    (∀ P : Fin 12, let x := s.lamps.pods[P]
      recordOf s 5 P.val = some (one (match x.state with
        | .unheard => 0
        | .live => 1
        | .silent => 2) ++ x.levels.toList.map (fun v => BitVec.ofNat 8 v.val) ++ flag x.dirty ++ two (left x.refresh 10000) ++ two (left x.report 10000))) ∧
    (∀ i, let x := s.flasher
      let flashing (sd : Side) : Bool := s.mode 1 || (s.mode 0 && decide (s.engine.indicate = some sd))
      recordOf s 6 i = some (one (match x.state with
        | .idle => 0
        | .lit => 1
        | .dark => 2) ++ one x.counter ++ one x.loaded ++ one (match x.rate with
        | .normal => 0
        | .fast => 1) ++ flag (flashing .left) ++ flag (flashing .right))) ∧
    (∀ d : Fin 16, let x := s.sampler.descriptors[d]
      recordOf s 7 d.val = some (one x.held ++ two x.sum ++ one (x.window.getD 0xFF) ++ two (x.average.getD 0xFFFF) ++ one (match x.threshold with
        | .unknown => 0
        | .active => 1
        | .inactive => 2) ++ flag x.stale ++ two (left x.staleTimer 10000) ++ (if d = 0 then two supply else []))) ∧
    (∀ i, recordOf s 8 i = some (two s.sampler.gateCount ++ two (s.sampler.tach.getD 0xFFFF) ++ two (left (some s.sampler.gateTimer) 10000))) ∧
    (∀ g : Fin 4, let x := s.gauges.gauges[g]
      recordOf s 9 g.val = some (two x.target ++ two x.deflection ++ two x.duty ++ flag x.undersupplied ++ flag x.stale ++ flag x.held ++ two supply)) ∧
    ∀ i, let x := s.gauges.fan
      let level := if s.mode 0 = false then 0 else if s.mode 3 then min s.engine.fanRequest.val (s.tables.peekParam .shedCap) else s.engine.fanRequest.val
      recordOf s 10 i =
        some (one s.engine.fanRequest.val ++ one level ++ two x.fraction ++ two x.duty ++ flag x.undersupplied ++ flag x.held ++ two supply)

/-- READ-COUNTERS DEVICE answers the six device counters in one reply, a port group its eight counters in two, each appended or dropped on its own; with the clear
flag every counter of the group is 0 afterwards but for the replies' own drops; a group or flag out of range is BAD-RANGE (R30, R164, R165, R182). -/
def Obligations.CountersAreReadAndCleared : Prop :=
  ∀ (dt : Time) (p : PortId) (s : State) (f : Frame) (g z : Byte), s.Serves p .serviceRequest f → s.service = .idle → f.payload = [5#8, g, z] →
    let two (c : Counter) : List Byte := [BitVec.ofNat 8 (c.toNat / 256), BitVec.ofNat 8 c.toNat]
    let reply (bytes : List Byte) : Frame := ⟨f.src, s.hubAddress, 5, bytes⟩
    let s1 : State := { s with now := s.now + dt }
    (2 < g.toNat ∨ 1 < z.toNat → exec (.readCounters dt p) s = .next (s1.setPort p ((s.port p).replied (reply [5#8, 2#8])))) ∧
    (g = 2#8 → z.toNat ≤ 1 →
      exec (.readCounters dt p) s =
        .next ((if z = 1#8 then
            { s1 with
              tables := { s.tables with parityCount := 0 }, routes := { s.routes with routeMiss := 0, reportError := 0 }
              events := { s.events with edgeLost := 0 }, engine := { s.engine with chainFault := 0, slotFull := 0 } }
          else s1).setPort p ((s.port p).replied (reply (5#8 :: 0#8 ::
            (two s.tables.parityCount ++ two s.routes.routeMiss ++ two s.routes.reportError ++ two s.events.edgeLost ++ two s.engine.chainFault ++
              two s.engine.slotFull))))) ) ∧
    ∀ h : PortId, g = (match h with
        | .front => 0#8
        | .rear => 1#8) → z.toNat ≤ 1 →
      let c := (s.port h).counters
      let s2 := if z = 1#8 then s1.setPort h { s.port h with counters := .zero } else s1
      exec (.readCounters dt p) s =
        .next (s2.setPort p (((s2.port p).offerReply (reply (5#8 :: 0#8 :: 1#8 :: (two c.rxGood ++ two c.rxFormat ++ two c.rxCheck ++ two c.rxOverflow))) false).replied
          (reply (5#8 :: 0#8 :: 2#8 :: (two c.txSent ++ two c.txCollide ++ two c.txDrop ++ two c.serviceDrop)))))

/-- WRITE-TABLE (R8, R9, R68, R72, R111, R159, R166): NOT-PARKED while IGNITION is set and BAD-RANGE outside its area, changing nothing but the reply; accepted, it writes exactly
its words with fresh parity and no mark, makes the source MODIFIED, takes the pending edge of each channel whose enable word it writes off and calls for a choice for EVENT
words, resolves all loads for LOAD words, and answers DONE with the pool released; nothing else changes. A load whose LOAD entry fails takes current level 0, whatever
its kind (log 14); that a write of EVENT words calls for a choice is marked as log 20 says. -/
def Obligations.WriteTableWritesItsWords : Prop :=
  ∀ (dt : Time) (p : PortId) (s : State) (f : Frame) (area hi lo : Byte) (data : List Byte) (ws : List Word16), s.Serves p .serviceRequest f →
    s.service = .idle → f.payload = 3#8 :: area :: hi :: lo :: data → wordsOf data = some ws → 1 ≤ ws.length → ws.length ≤ 6 →
    let reply (u : State) (b : Byte) : Result := .next (u.setPort p ((u.port p).replied ⟨f.src, s.hubAddress, 5, [3#8, b]⟩))
    let index := hi.toNat * 256 + lo.toNat
    (s.ignition = true → exec (.writeTable dt p) s = reply { s with now := s.now + dt } 3#8) ∧
    (s.ignition = false → (Area.ofByte area = none ∨ ∃ a, Area.ofByte area = some a ∧ a.words < index + ws.length) →
      exec (.writeTable dt p) s = reply { s with now := s.now + dt } 2#8) ∧
    ∀ a, s.ignition = false → Area.ofByte area = some a → index + ws.length ≤ a.words → Memory.wf unlistedWord tableWords s.tables.cells = true →
      ∃ w t : State, exec (.writeTable dt p) s = reply t 0#8 ∧
        w = { s with now := s.now + dt, tables := w.tables, events := w.events } ∧ w.tables.source = .modified ∧
        w.tables.parityCount = s.tables.parityCount ∧
        (∀ b, w.tables.word b =
          if a.base + index ≤ b ∧ b < a.base + index + ws.length then fresh (ws.getD (b - (a.base + index)) 0#16) else s.tables.word b) ∧
        (∀ b, a.base + index ≤ b ∧ b < a.base + index + ws.length → (w.tables.word b).fails = false ∧ (w.tables.word b).mark = false) ∧
        (a ≠ .event → w.events = s.events) ∧
        (a = .event → w.events = { s.events with channels := w.events.channels, choiceMade := false } ∧
          ∀ c : Fin 32, w.events.channels[c] =
            if index ≤ 2 * c.val ∧ 2 * c.val < index + ws.length ∧ (ws.getD (2 * c.val - index) 0#16).getLsbD 15 = false then
              { s.events.channels[c] with pending := none }
            else s.events.channels[c]) ∧
        (a ≠ .load → t = w) ∧
        (a = .load → t = resolveLoads w false (List.finRange 32) ∧ w.tables.ReadsOnly t.tables ∧
          t = { w with
                tables := t.tables, front := { s.front with queue := t.front.queue }, rear := { s.rear with queue := t.rear.queue }, lamps := t.lamps } ∧
          t.lamps.fadeTimer = s.lamps.fadeTimer ∧
          (∀ P : Fin 12, t.lamps.pods[P] = { s.lamps.pods[P] with levels := (t.lamps.pods[P]).levels, dirty := (t.lamps.pods[P]).dirty }) ∧
          ∀ l : Fin 32, t.lamps.loads[l] =
            match (t.tables.load l).2 with
            | some e => (s.lamps.loads[l]).resolve (s.elapse dt).lampEnv false e
            | none => { s.lamps.loads[l] with effective := 0, current := 0, litSince := none })

/-- CLEAR-LATCH clears trip state, retry count and cool-off of the load named, or of all, and resolves each, whatever IGNITION holds, and answers DONE with the pool
released; no other load and nothing else changes; any other value is BAD-RANGE (R110, R160, R167). A load whose LOAD entry fails takes current level 0, whatever its kind
(log 14). -/
def Obligations.ClearLatchClearsTrips : Prop :=
  ∀ (dt : Time) (p : PortId) (s : State) (f : Frame) (v : Byte), s.Serves p .serviceRequest f → s.service = .idle → f.payload = [6#8, v] →
    let reply (u : State) (b : Byte) : Result := .next (u.setPort p ((u.port p).replied ⟨f.src, s.hubAddress, 5, [6#8, b]⟩))
    (32 ≤ v.toNat → v ≠ 0xFF#8 → exec (.clearLatch dt p) s = reply { s with now := s.now + dt } 2#8) ∧
    (v.toNat < 32 ∨ v = 0xFF#8 →
      ∃ t w : State, exec (.clearLatch dt p) s = reply t 0#8 ∧ s.tables.ReadsOnly t.tables ∧
        w = { s with now := s.now + dt, lamps := { s.lamps with loads := w.lamps.loads } } ∧
        (∀ l : Fin 32, w.lamps.loads[l] =
          if v = 0xFF#8 ∨ v.toNat = l.val then { s.lamps.loads[l] with trip := .normal, retry := 0, coolOff := none } else s.lamps.loads[l]) ∧
        t = resolveLoads w false ((List.finRange 32).filter fun l => decide (v = 0xFF#8) || decide (v.toNat = l.val)) ∧
        t = { s with
              now := s.now + dt, tables := t.tables, front := { s.front with queue := t.front.queue }, rear := { s.rear with queue := t.rear.queue }
              lamps := t.lamps } ∧
        t.lamps.fadeTimer = s.lamps.fadeTimer ∧
        (∀ P : Fin 12, t.lamps.pods[P] = { s.lamps.pods[P] with levels := (t.lamps.pods[P]).levels, dirty := (t.lamps.pods[P]).dirty }) ∧
        ∀ l : Fin 32, t.lamps.loads[l] =
          if v = 0xFF#8 ∨ v.toNat = l.val then
            match (s.tables.load l).2 with
            | some e => ({ s.lamps.loads[l] with trip := .normal, retry := 0, coolOff := none } : LoadRecord).resolve (s.elapse dt).lampEnv false e
            | none => { s.lamps.loads[l] with trip := .normal, retry := 0, coolOff := none, effective := 0, current := 0, litSince := none }
          else s.lamps.loads[l])

/-- STORE (R169, R170): a failing word ends it with FAILED, PARITY counting once and every failing word marked; otherwise it is in flight with no reply, holding the requester and
the words as read. STORE_COMPLETE verified: the NV image is those words and their check word, the source NV, the state IDLE, DONE to the requester; not
verified: the image is free (log 9), the source unchanged, FAILED to the requester. -/
def Obligations.StoreProgramsTheImage : Prop :=
  (∀ (dt : Time) (p : PortId) (s : State) (f : Frame), s.Serves p .serviceRequest f → s.service = .idle → f.payload = [7#8] →
    ((∃ a < tableWords, (s.tables.word a).fails = true) →
      ∃ t, exec (.store dt p) s = .next t ∧
        t = { (({ s with now := s.now + dt } : State).setPort p ((s.port p).replied ⟨f.src, s.hubAddress, 5, [7#8, 5#8]⟩)) with tables := t.tables } ∧
        s.tables.ReadsOnly t.tables ∧ t.tables.parityCount = s.tables.parityCount.bump ∧
        ∀ a < tableWords, (s.tables.word a).fails = true → (t.tables.word a).mark = true) ∧
    ((∀ a < tableWords, (s.tables.word a).fails = false) →
      ∃ image, exec (.store dt p) s = .next { (({ s with now := s.now + dt } : State).setPort p (s.port p).release) with service := .storing f.src p image } ∧
        (∀ a < tableWords, Memory.read nvUnlisted image a = (s.tables.word a).data) ∧
        Memory.read nvUnlisted image tableWords = nvCheck fun a => (s.tables.word a).data)) ∧
  ∀ (dt : Time) (s : State) (r : LoomAddr) (p : PortId) (image : List (Nat × Word16)), s.power = .running → s.service = .storing r p image →
    exec (.storeComplete dt true) s =
      .next { (({ s with now := s.now + dt } : State).setPort p ((s.port p).offerReply ⟨r, s.hubAddress, 5, [7#8, 0#8]⟩ false)) with
        service := .idle, nv := image, tables := { s.tables with source := .nv } } ∧
    ∃ t, exec (.storeComplete dt false) s = .next t ∧
      t = { (({ s with now := s.now + dt } : State).setPort p ((s.port p).offerReply ⟨r, s.hubAddress, 5, [7#8, 5#8]⟩ false)) with
            service := .idle, nv := t.nv, draws := t.draws } ∧
      ∀ a < nvWords, t.nvWord a = Config.nvAfterBrokenProgramming s.draws a

/-- LOAD-LIMP (R8, R14, R68, R72, R111, R160, R168): NOT-PARKED while IGNITION is set and BAD-RANGE for a variant byte other than 0 and 1, changing nothing but the reply;
accepted, every word of the store is the variant's with fresh parity and no mark, the source LIMP, each channel the variant disables loses its pending edge, a choice is
called for (log 20), all loads are resolved, and it answers DONE with the pool released; nothing else changes, the NV image included. No word of a variant fails, so that
nothing rests on log 14 here. -/
def Obligations.LoadLimpReplacesTheStore : Prop :=
  ∀ (dt : Time) (p : PortId) (s : State) (f : Frame) (v : Byte), s.Serves p .serviceRequest f → s.service = .idle → f.payload = [8#8, v] →
    let reply (u : State) (b : Byte) : Result := .next (u.setPort p ((u.port p).replied ⟨f.src, s.hubAddress, 5, [8#8, b]⟩))
    (s.ignition = true → exec (.loadLimp dt p) s = reply { s with now := s.now + dt } 3#8) ∧
    (s.ignition = false → 1 < v.toNat → exec (.loadLimp dt p) s = reply { s with now := s.now + dt } 2#8) ∧
    ∀ variant : LimpVariant, s.ignition = false → v = (match variant with
        | .separate => 0#8
        | .combined => 1#8) →
      ∃ w t : State, exec (.loadLimp dt p) s = reply t 0#8 ∧
        w = { s with now := s.now + dt, tables := w.tables, events := { s.events with channels := w.events.channels, choiceMade := false } } ∧
        (∀ a < tableWords, w.tables.word a = fresh (Limp.word variant a)) ∧ w.tables.source = .limp ∧
        w.tables.parityCount = s.tables.parityCount ∧ w.tables.tableFault = false ∧
        (∀ c : Fin 32, w.events.channels[c] =
          if (Limp.word variant (384 + 2 * c.val)).getLsbD 15 then s.events.channels[c] else { s.events.channels[c] with pending := none }) ∧
        t = resolveLoads w false (List.finRange 32) ∧
        t = { w with front := { s.front with queue := t.front.queue }, rear := { s.rear with queue := t.rear.queue }, lamps := t.lamps } ∧
        t.lamps.fadeTimer = s.lamps.fadeTimer ∧
        (∀ P : Fin 12, t.lamps.pods[P] = { s.lamps.pods[P] with levels := (t.lamps.pods[P]).levels, dirty := (t.lamps.pods[P]).dirty }) ∧
        ∀ l : Fin 32, ∃ e, (w.tables.load l).2 = some e ∧ t.lamps.loads[l] = (s.lamps.loads[l]).resolve (s.elapse dt).lampEnv false e

/-- RESTART (R171): with room in the queue the reply DONE is queued, marked as the one waited for (log 21), and the engine is RESTARTING; nothing else changes. At a full queue the
reply is dropped and the restart made at once: every block is set up, and counters, store contents, straps and NV image are kept. -/
def Obligations.RestartWaitsForItsReply : Prop :=
  ∀ (dt : Time) (p : PortId) (s : State) (f : Frame), s.Serves p .serviceRequest f → s.service = .idle → f.payload = [9#8] →
    ((s.port p).queue.length < 8 → exec (.restart dt p) s =
      .next { (({ s with now := s.now + dt } : State).setPort p
          ({ s.port p with queue := (s.port p).queue ++ [⟨⟨f.src, s.hubAddress, 5, [9#8, 0#8]⟩, false, none, true⟩] } : Port).release) with service := .restarting }) ∧
    (8 ≤ (s.port p).queue.length → ∃ t, exec (.restart dt p) s = .next t ∧ t.SetUp ∧ t.power = .running ∧ t.straps = s.straps ∧ t.nv = s.nv ∧
      s.tables.ReadsOnly t.tables ∧ (t.port p).counters = { (s.port p).counters with serviceDrop := (s.port p).counters.serviceDrop.bump } ∧
      (t.port p.other).counters = (s.port p.other).counters ∧ t.routes.routeMiss = s.routes.routeMiss ∧ t.routes.reportError = s.routes.reportError ∧
      t.events.edgeLost = s.events.edgeLost ∧ t.engine.chainFault = s.engine.chainFault ∧ t.engine.slotFull = s.engine.slotFull)

/-! ## The store -/

/-- Every step keeps the table store, the NV image and the image of a STORE in flight in canonical form (log 11). -/
def Obligations.StepKeepsMemory : Prop := ∀ s t : State, s.MemoryWf → step s = .next t → t.MemoryWf

/-- R8: in a step that leaves a word of the store with other data or parity bits, the command taken is POWER_ON, or a WRITE_TABLE or LOAD_LIMP accepted while IGNITION is clear
and no STORE is in flight, or the bits were disturbed in storage or lost below 2.5 V. -/
def Obligations.StoreIsWrittenOnlyWhenParked : Prop :=
  ∀ (s t : State) (c : Instr) (rest : List Instr) (a : Nat), s.pending = c :: rest → step s = .next t →
    ((t.tables.word a).data ≠ (s.tables.word a).data ∨ (t.tables.word a).parity ≠ (s.tables.word a).parity) →
    match c with
    | .powerOn _ _ => s.power = .lost ∨ s.power = .unloaded
    | .writeTable _ _ => s.ignition = false ∧ s.service = .idle ∧ s.power = .running
    | .loadLimp _ _ => s.ignition = false ∧ s.service = .idle ∧ s.power = .running
    | .bitsDisturbedInStorage _ area index _ => a = area.base + index
    | .feedFellBelow2V5 _ => s.power = .held ∨ s.power = .unloaded
    | _ => False

/-- Every step keeps a SILENT source's watch timer stopped (R49) and a pod's report timer stopped exactly while it is SILENT (R104). -/
def Obligations.StepKeepsSupervision : Prop :=
  ∀ s t : State, (∀ a : Fin 64, (s.routes.sources[a]).Wf) → (∀ P : Fin 12, (s.lamps.pods[P]).Wf) → step s = .next t →
    (∀ a : Fin 64, (t.routes.sources[a]).Wf) ∧ ∀ P : Fin 12, (t.lamps.pods[P]).Wf
end

