-- ==== Sys2Proof/Laws/Memory.lean ====
section
/-! SUPPORT. The addressed memories: what a write and a whole image read back as, and that every operation keeps the canonical form. -/

namespace Sys2Proof.Machine.Memory

variable {α : Type} [DecidableEq α]

omit [DecidableEq α] in
/-- Below the first listed address everything is unlisted. -/
theorem read_unlisted_below (u : Nat → α) : ∀ (m : List (Nat × α)) (a : Nat), (∀ c ∈ m, a < c.1) → read u m a = u a := by
  intro m
  induction m with
  | nil => intro a _; rfl
  | cons c m ih =>
    intro a h
    have h1 := h c (by simp)
    have : a ≠ c.1 := by omega
    simp only [read, if_neg this]
    exact ih a fun d hd => h d (by simp [hd])

/-- The canonical form, spelled out. -/
theorem wf_cons {u : Nat → α} {n : Nat} {c : Nat × α} {m : List (Nat × α)} :
    wf u n (c :: m) = true ↔ c.1 < n ∧ c.2 ≠ u c.1 ∧ (∀ d ∈ m, c.1 < d.1) ∧ wf u n m = true := by
  simp [wf, and_assoc]

/-- Reading an address after any write. -/
theorem read_write (u : Nat → α) (n : Nat) :
    ∀ (m : List (Nat × α)) (a : Nat) (v : α) (b : Nat), wf u n m = true → read u (write u m a v) b = if b = a then v else read u m b := by
  intro m
  induction m with
  | nil =>
    intro a v b _
    by_cases hv : v = u a
    · by_cases hb : b = a
      · subst hb; simp [write, read, hv]
      · simp [write, read, hv, hb]
    · simp [write, read, hv]
  | cons c m ih =>
    intro a v b h
    obtain ⟨c1, c2⟩ := c
    obtain ⟨_, _, h3, h4⟩ := wf_cons.mp h
    simp only [write]
    by_cases h1 : a < c1
    · have hu : ∀ d ∈ (c1, c2) :: m, a < d.1 := by
        intro d hd
        rcases List.mem_cons.mp hd with e | e
        · subst e; exact h1
        · have := h3 d e; simp at this; omega
      by_cases hv : v = u a
      · by_cases hb : b = a
        · subst hb; simp [h1, hv, read_unlisted_below u _ _ hu]
        · simp [h1, hv, hb]
      · by_cases hb : b = a
        · subst hb; simp [h1, hv, read]
        · simp [h1, hv, hb, read]
    · by_cases h2 : a = c1
      · subst h2
        by_cases hv : v = u a
        · by_cases hb : b = a
          · subst hb; simp [hv, read_unlisted_below u m b h3]
          · simp [hv, hb, read]
        · by_cases hb : b = a
          · subst hb; simp [hv, read]
          · simp [hv, hb, read]
      · simp only [if_neg h1, if_neg h2, read]
        by_cases hb : b = c1
        · have : b ≠ a := by omega
          simp [hb, Ne.symm h2]
        · simp [hb, ih a v b h4]

/-- A write touches no other address, canonical or not. -/
theorem read_write_other (u : Nat → α) : ∀ (m : List (Nat × α)) (a : Nat) (v : α) (b : Nat), b ≠ a → read u (write u m a v) b = read u m b := by
  intro m
  induction m with
  | nil => intro a v b h; simp only [write]; split <;> simp [read, h]
  | cons c m ih =>
    intro a v b h
    simp only [write]
    split
    · split
      · rfl
      · simp [read, h]
    · split
      · rename_i e
        split
        · subst e; simp [read, h]
        · subst e; simp [read, h]
      · simp only [read, ih a v b h]

/-- A value that is not the unlisted one reads back, canonical or not. -/
theorem read_write_listed (u : Nat → α) : ∀ (m : List (Nat × α)) (a : Nat) (v : α), v ≠ u a → read u (write u m a v) a = v := by
  intro m
  induction m with
  | nil => intro a v h; simp [write, read, h]
  | cons c m ih =>
    intro a v h
    simp only [write, if_neg h]
    split
    · simp [read]
    · split
      · simp [read]
      · rename_i h1 h2; simp only [read, if_neg h2, ih a v h]

/-- Every address a write leaves listed was listed before, or is the one written. -/
theorem mem_write (u : Nat → α) : ∀ (m : List (Nat × α)) (a : Nat) (v : α) (d : Nat × α), d ∈ write u m a v → d ∈ m ∨ d = (a, v) := by
  intro m
  induction m with
  | nil => intro a v d h; simp only [write] at h; split at h <;> simp_all
  | cons c m ih =>
    intro a v d h
    simp only [write] at h
    split at h
    · split at h
      · exact Or.inl h
      · rcases List.mem_cons.mp h with e | e
        · exact Or.inr e
        · exact Or.inl e
    · split at h
      · split at h
        · exact Or.inl (List.mem_cons_of_mem _ h)
        · rcases List.mem_cons.mp h with e | e
          · exact Or.inr e
          · exact Or.inl (List.mem_cons_of_mem _ e)
      · rcases List.mem_cons.mp h with e | e
        · exact Or.inl (by simp [e])
        · rcases ih a v d e with f | f
          · exact Or.inl (List.mem_cons_of_mem _ f)
          · exact Or.inr f

/-- A write within the memory keeps the canonical form. -/
theorem write_wf (u : Nat → α) (n : Nat) : ∀ (m : List (Nat × α)) (a : Nat) (v : α), a < n → wf u n m = true → wf u n (write u m a v) = true := by
  intro m
  induction m with
  | nil =>
    intro a v ha _
    simp only [write]
    split
    · rfl
    · rename_i hv; exact wf_cons.mpr ⟨ha, hv, by simp, rfl⟩
  | cons c m ih =>
    intro a v ha h
    obtain ⟨h1, h2, h3, h4⟩ := wf_cons.mp h
    simp only [write]
    split
    · rename_i hlt
      split
      · exact h
      · rename_i hv
        refine wf_cons.mpr ⟨ha, hv, ?_, h⟩
        intro d hd
        rcases List.mem_cons.mp hd with e | e
        · subst e; exact hlt
        · exact Nat.lt_trans hlt (h3 d e)
    · split
      · rename_i hlt heq
        split
        · exact h4
        · rename_i hv
          exact wf_cons.mpr ⟨ha, hv, fun d hd => heq ▸ h3 d hd, h4⟩
      · rename_i hlt hne
        refine wf_cons.mpr ⟨h1, h2, ?_, ih a v ha h4⟩
        intro d hd
        rcases mem_write u m a v d hd with e | e
        · exact h3 d e
        · subst e; show c.1 < a; omega

/-- The whole image from an address on: canonical, and it reads as its function. -/
theorem ofFn_from (u : Nat → α) (n : Nat) (f : Nat → α) :
    ∀ (k a : Nat), a + k ≤ n →
      wf u n ((List.range' a k).filterMap fun a => if f a = u a then none else some (a, f a)) = true ∧
        (∀ d ∈ (List.range' a k).filterMap fun a => if f a = u a then none else some (a, f a), a ≤ d.1) ∧
          ∀ b, read u ((List.range' a k).filterMap fun a => if f a = u a then none else some (a, f a)) b =
            if a ≤ b ∧ b < a + k then f b else u b := by
  intro k
  induction k with
  | zero => intro a _; refine ⟨rfl, by simp, ?_⟩; exact fun b => (if_neg (by omega)).symm
  | succ k ih =>
    intro a h
    obtain ⟨w, l, r⟩ := ih (a + 1) (by omega)
    by_cases e : f a = u a
    · simp only [List.range'_succ, List.filterMap_cons, e, if_true]
      refine ⟨w, fun d hd => by have := l d hd; omega, ?_⟩
      intro b
      rw [r b]
      by_cases hb : b = a
      · subst hb; simp [e]
      · have : (a + 1 ≤ b ∧ b < a + 1 + k) ↔ (a ≤ b ∧ b < a + (k + 1)) := by omega
        simp only [this]
    · simp only [List.range'_succ, List.filterMap_cons, e, if_false]
      refine ⟨wf_cons.mpr ⟨by show a < n; omega, e, fun d hd => by have := l d hd; show a < d.1; omega, w⟩, ?_, ?_⟩
      · intro d hd
        rcases List.mem_cons.mp hd with e1 | e1
        · simp [e1]
        · have := l d e1; omega
      · intro b
        simp only [read]
        by_cases hb : b = a
        · subst hb; simp
        · rw [if_neg hb, r b]
          have : (a + 1 ≤ b ∧ b < a + 1 + k) ↔ (a ≤ b ∧ b < a + (k + 1)) := by omega
          simp only [this]

/-- A whole image is canonical. -/
theorem ofFn_wf (u : Nat → α) (n : Nat) (f : Nat → α) : wf u n (ofFn u n f) = true := by
  have := (ofFn_from u n f n 0 (by omega)).1
  rwa [← List.range_eq_range'] at this

/-- A whole image reads as its function, inside its size. -/
theorem read_ofFn (u : Nat → α) (n : Nat) (f : Nat → α) (b : Nat) : read u (ofFn u n f) b = if b < n then f b else u b := by
  have := (ofFn_from u n f n 0 (by omega)).2.2 b
  rw [← List.range_eq_range'] at this
  simpa [ofFn] using this

end Sys2Proof.Machine.Memory
end

