-- ==== Sys2Proof/Laws/State.lean ====
section
/-! SUPPORT. What each update of the state does to each field: one lemma per field per update, all simp. -/

namespace Sys2Proof.Machine

/-! ## elapse -/

@[simp] theorem State.elapse_pending (dt : Time) (s : State) : (s.elapse dt).pending = s.pending := rfl
@[simp] theorem State.elapse_now (dt : Time) (s : State) : (s.elapse dt).now = s.now + dt := rfl
@[simp] theorem State.elapse_draws (dt : Time) (s : State) : (s.elapse dt).draws = s.draws := rfl
@[simp] theorem State.elapse_power (dt : Time) (s : State) : (s.elapse dt).power = s.power := rfl
@[simp] theorem State.elapse_straps (dt : Time) (s : State) : (s.elapse dt).straps = s.straps := rfl
@[simp] theorem State.elapse_tables (dt : Time) (s : State) : (s.elapse dt).tables = s.tables := rfl
@[simp] theorem State.elapse_nv (dt : Time) (s : State) : (s.elapse dt).nv = s.nv := rfl
@[simp] theorem State.elapse_front (dt : Time) (s : State) : (s.elapse dt).front = s.front := rfl
@[simp] theorem State.elapse_rear (dt : Time) (s : State) : (s.elapse dt).rear = s.rear := rfl
@[simp] theorem State.elapse_routes (dt : Time) (s : State) : (s.elapse dt).routes = s.routes := rfl
@[simp] theorem State.elapse_events (dt : Time) (s : State) : (s.elapse dt).events = s.events := rfl
@[simp] theorem State.elapse_engine (dt : Time) (s : State) : (s.elapse dt).engine = s.engine := rfl
@[simp] theorem State.elapse_lamps (dt : Time) (s : State) : (s.elapse dt).lamps = s.lamps := rfl
@[simp] theorem State.elapse_flasher (dt : Time) (s : State) : (s.elapse dt).flasher = s.flasher := rfl
@[simp] theorem State.elapse_sampler (dt : Time) (s : State) : (s.elapse dt).sampler = s.sampler := rfl
@[simp] theorem State.elapse_gauges (dt : Time) (s : State) : (s.elapse dt).gauges = s.gauges := rfl
@[simp] theorem State.elapse_service (dt : Time) (s : State) : (s.elapse dt).service = s.service := rfl

/-! ## withTables -/

@[simp] theorem State.withTables_pending (s : State) (t : TableStore) : (s.withTables t).pending = s.pending := rfl
@[simp] theorem State.withTables_now (s : State) (t : TableStore) : (s.withTables t).now = s.now := rfl
@[simp] theorem State.withTables_draws (s : State) (t : TableStore) : (s.withTables t).draws = s.draws := rfl
@[simp] theorem State.withTables_power (s : State) (t : TableStore) : (s.withTables t).power = s.power := rfl
@[simp] theorem State.withTables_straps (s : State) (t : TableStore) : (s.withTables t).straps = s.straps := rfl
@[simp] theorem State.withTables_tables (s : State) (t : TableStore) : (s.withTables t).tables = t := rfl
@[simp] theorem State.withTables_nv (s : State) (t : TableStore) : (s.withTables t).nv = s.nv := rfl
@[simp] theorem State.withTables_front (s : State) (t : TableStore) : (s.withTables t).front = s.front := rfl
@[simp] theorem State.withTables_rear (s : State) (t : TableStore) : (s.withTables t).rear = s.rear := rfl
@[simp] theorem State.withTables_routes (s : State) (t : TableStore) : (s.withTables t).routes = s.routes := rfl
@[simp] theorem State.withTables_events (s : State) (t : TableStore) : (s.withTables t).events = s.events := rfl
@[simp] theorem State.withTables_engine (s : State) (t : TableStore) : (s.withTables t).engine = s.engine := rfl
@[simp] theorem State.withTables_lamps (s : State) (t : TableStore) : (s.withTables t).lamps = s.lamps := rfl
@[simp] theorem State.withTables_flasher (s : State) (t : TableStore) : (s.withTables t).flasher = s.flasher := rfl
@[simp] theorem State.withTables_sampler (s : State) (t : TableStore) : (s.withTables t).sampler = s.sampler := rfl
@[simp] theorem State.withTables_gauges (s : State) (t : TableStore) : (s.withTables t).gauges = s.gauges := rfl
@[simp] theorem State.withTables_service (s : State) (t : TableStore) : (s.withTables t).service = s.service := rfl

/-! ## updLoad -/

@[simp] theorem State.updLoad_pending (s : State) (l : Fin 32) (f : LoadRecord → LoadRecord) : (s.updLoad l f).pending = s.pending := rfl
@[simp] theorem State.updLoad_now (s : State) (l : Fin 32) (f : LoadRecord → LoadRecord) : (s.updLoad l f).now = s.now := rfl
@[simp] theorem State.updLoad_draws (s : State) (l : Fin 32) (f : LoadRecord → LoadRecord) : (s.updLoad l f).draws = s.draws := rfl
@[simp] theorem State.updLoad_power (s : State) (l : Fin 32) (f : LoadRecord → LoadRecord) : (s.updLoad l f).power = s.power := rfl
@[simp] theorem State.updLoad_straps (s : State) (l : Fin 32) (f : LoadRecord → LoadRecord) : (s.updLoad l f).straps = s.straps := rfl
@[simp] theorem State.updLoad_tables (s : State) (l : Fin 32) (f : LoadRecord → LoadRecord) : (s.updLoad l f).tables = s.tables := rfl
@[simp] theorem State.updLoad_nv (s : State) (l : Fin 32) (f : LoadRecord → LoadRecord) : (s.updLoad l f).nv = s.nv := rfl
@[simp] theorem State.updLoad_front (s : State) (l : Fin 32) (f : LoadRecord → LoadRecord) : (s.updLoad l f).front = s.front := rfl
@[simp] theorem State.updLoad_rear (s : State) (l : Fin 32) (f : LoadRecord → LoadRecord) : (s.updLoad l f).rear = s.rear := rfl
@[simp] theorem State.updLoad_routes (s : State) (l : Fin 32) (f : LoadRecord → LoadRecord) : (s.updLoad l f).routes = s.routes := rfl
@[simp] theorem State.updLoad_events (s : State) (l : Fin 32) (f : LoadRecord → LoadRecord) : (s.updLoad l f).events = s.events := rfl
@[simp] theorem State.updLoad_engine (s : State) (l : Fin 32) (f : LoadRecord → LoadRecord) : (s.updLoad l f).engine = s.engine := rfl
@[simp] theorem State.updLoad_lamps (s : State) (l : Fin 32) (f : LoadRecord → LoadRecord) : (s.updLoad l f).lamps = { s.lamps with loads := upd s.lamps.loads l f } := rfl
@[simp] theorem State.updLoad_flasher (s : State) (l : Fin 32) (f : LoadRecord → LoadRecord) : (s.updLoad l f).flasher = s.flasher := rfl
@[simp] theorem State.updLoad_sampler (s : State) (l : Fin 32) (f : LoadRecord → LoadRecord) : (s.updLoad l f).sampler = s.sampler := rfl
@[simp] theorem State.updLoad_gauges (s : State) (l : Fin 32) (f : LoadRecord → LoadRecord) : (s.updLoad l f).gauges = s.gauges := rfl
@[simp] theorem State.updLoad_service (s : State) (l : Fin 32) (f : LoadRecord → LoadRecord) : (s.updLoad l f).service = s.service := rfl

/-! ## updPod -/

@[simp] theorem State.updPod_pending (s : State) (P : Fin 12) (f : PodRecord → PodRecord) : (s.updPod P f).pending = s.pending := rfl
@[simp] theorem State.updPod_now (s : State) (P : Fin 12) (f : PodRecord → PodRecord) : (s.updPod P f).now = s.now := rfl
@[simp] theorem State.updPod_draws (s : State) (P : Fin 12) (f : PodRecord → PodRecord) : (s.updPod P f).draws = s.draws := rfl
@[simp] theorem State.updPod_power (s : State) (P : Fin 12) (f : PodRecord → PodRecord) : (s.updPod P f).power = s.power := rfl
@[simp] theorem State.updPod_straps (s : State) (P : Fin 12) (f : PodRecord → PodRecord) : (s.updPod P f).straps = s.straps := rfl
@[simp] theorem State.updPod_tables (s : State) (P : Fin 12) (f : PodRecord → PodRecord) : (s.updPod P f).tables = s.tables := rfl
@[simp] theorem State.updPod_nv (s : State) (P : Fin 12) (f : PodRecord → PodRecord) : (s.updPod P f).nv = s.nv := rfl
@[simp] theorem State.updPod_front (s : State) (P : Fin 12) (f : PodRecord → PodRecord) : (s.updPod P f).front = s.front := rfl
@[simp] theorem State.updPod_rear (s : State) (P : Fin 12) (f : PodRecord → PodRecord) : (s.updPod P f).rear = s.rear := rfl
@[simp] theorem State.updPod_routes (s : State) (P : Fin 12) (f : PodRecord → PodRecord) : (s.updPod P f).routes = s.routes := rfl
@[simp] theorem State.updPod_events (s : State) (P : Fin 12) (f : PodRecord → PodRecord) : (s.updPod P f).events = s.events := rfl
@[simp] theorem State.updPod_engine (s : State) (P : Fin 12) (f : PodRecord → PodRecord) : (s.updPod P f).engine = s.engine := rfl
@[simp] theorem State.updPod_lamps (s : State) (P : Fin 12) (f : PodRecord → PodRecord) : (s.updPod P f).lamps = { s.lamps with pods := upd s.lamps.pods P f } := rfl
@[simp] theorem State.updPod_flasher (s : State) (P : Fin 12) (f : PodRecord → PodRecord) : (s.updPod P f).flasher = s.flasher := rfl
@[simp] theorem State.updPod_sampler (s : State) (P : Fin 12) (f : PodRecord → PodRecord) : (s.updPod P f).sampler = s.sampler := rfl
@[simp] theorem State.updPod_gauges (s : State) (P : Fin 12) (f : PodRecord → PodRecord) : (s.updPod P f).gauges = s.gauges := rfl
@[simp] theorem State.updPod_service (s : State) (P : Fin 12) (f : PodRecord → PodRecord) : (s.updPod P f).service = s.service := rfl

/-! ## updSource -/

@[simp] theorem State.updSource_pending (s : State) (a : Fin 64) (f : SourceRecord → SourceRecord) : (s.updSource a f).pending = s.pending := rfl
@[simp] theorem State.updSource_now (s : State) (a : Fin 64) (f : SourceRecord → SourceRecord) : (s.updSource a f).now = s.now := rfl
@[simp] theorem State.updSource_draws (s : State) (a : Fin 64) (f : SourceRecord → SourceRecord) : (s.updSource a f).draws = s.draws := rfl
@[simp] theorem State.updSource_power (s : State) (a : Fin 64) (f : SourceRecord → SourceRecord) : (s.updSource a f).power = s.power := rfl
@[simp] theorem State.updSource_straps (s : State) (a : Fin 64) (f : SourceRecord → SourceRecord) : (s.updSource a f).straps = s.straps := rfl
@[simp] theorem State.updSource_tables (s : State) (a : Fin 64) (f : SourceRecord → SourceRecord) : (s.updSource a f).tables = s.tables := rfl
@[simp] theorem State.updSource_nv (s : State) (a : Fin 64) (f : SourceRecord → SourceRecord) : (s.updSource a f).nv = s.nv := rfl
@[simp] theorem State.updSource_front (s : State) (a : Fin 64) (f : SourceRecord → SourceRecord) : (s.updSource a f).front = s.front := rfl
@[simp] theorem State.updSource_rear (s : State) (a : Fin 64) (f : SourceRecord → SourceRecord) : (s.updSource a f).rear = s.rear := rfl
@[simp] theorem State.updSource_routes (s : State) (a : Fin 64) (f : SourceRecord → SourceRecord) : (s.updSource a f).routes = { s.routes with sources := upd s.routes.sources a f } := rfl
@[simp] theorem State.updSource_events (s : State) (a : Fin 64) (f : SourceRecord → SourceRecord) : (s.updSource a f).events = s.events := rfl
@[simp] theorem State.updSource_engine (s : State) (a : Fin 64) (f : SourceRecord → SourceRecord) : (s.updSource a f).engine = s.engine := rfl
@[simp] theorem State.updSource_lamps (s : State) (a : Fin 64) (f : SourceRecord → SourceRecord) : (s.updSource a f).lamps = s.lamps := rfl
@[simp] theorem State.updSource_flasher (s : State) (a : Fin 64) (f : SourceRecord → SourceRecord) : (s.updSource a f).flasher = s.flasher := rfl
@[simp] theorem State.updSource_sampler (s : State) (a : Fin 64) (f : SourceRecord → SourceRecord) : (s.updSource a f).sampler = s.sampler := rfl
@[simp] theorem State.updSource_gauges (s : State) (a : Fin 64) (f : SourceRecord → SourceRecord) : (s.updSource a f).gauges = s.gauges := rfl
@[simp] theorem State.updSource_service (s : State) (a : Fin 64) (f : SourceRecord → SourceRecord) : (s.updSource a f).service = s.service := rfl

/-! ## updChannel -/

@[simp] theorem State.updChannel_pending (s : State) (c : Fin 32) (f : Channel → Channel) : (s.updChannel c f).pending = s.pending := rfl
@[simp] theorem State.updChannel_now (s : State) (c : Fin 32) (f : Channel → Channel) : (s.updChannel c f).now = s.now := rfl
@[simp] theorem State.updChannel_draws (s : State) (c : Fin 32) (f : Channel → Channel) : (s.updChannel c f).draws = s.draws := rfl
@[simp] theorem State.updChannel_power (s : State) (c : Fin 32) (f : Channel → Channel) : (s.updChannel c f).power = s.power := rfl
@[simp] theorem State.updChannel_straps (s : State) (c : Fin 32) (f : Channel → Channel) : (s.updChannel c f).straps = s.straps := rfl
@[simp] theorem State.updChannel_tables (s : State) (c : Fin 32) (f : Channel → Channel) : (s.updChannel c f).tables = s.tables := rfl
@[simp] theorem State.updChannel_nv (s : State) (c : Fin 32) (f : Channel → Channel) : (s.updChannel c f).nv = s.nv := rfl
@[simp] theorem State.updChannel_front (s : State) (c : Fin 32) (f : Channel → Channel) : (s.updChannel c f).front = s.front := rfl
@[simp] theorem State.updChannel_rear (s : State) (c : Fin 32) (f : Channel → Channel) : (s.updChannel c f).rear = s.rear := rfl
@[simp] theorem State.updChannel_routes (s : State) (c : Fin 32) (f : Channel → Channel) : (s.updChannel c f).routes = s.routes := rfl
@[simp] theorem State.updChannel_events (s : State) (c : Fin 32) (f : Channel → Channel) : (s.updChannel c f).events = { s.events with channels := upd s.events.channels c f } := rfl
@[simp] theorem State.updChannel_engine (s : State) (c : Fin 32) (f : Channel → Channel) : (s.updChannel c f).engine = s.engine := rfl
@[simp] theorem State.updChannel_lamps (s : State) (c : Fin 32) (f : Channel → Channel) : (s.updChannel c f).lamps = s.lamps := rfl
@[simp] theorem State.updChannel_flasher (s : State) (c : Fin 32) (f : Channel → Channel) : (s.updChannel c f).flasher = s.flasher := rfl
@[simp] theorem State.updChannel_sampler (s : State) (c : Fin 32) (f : Channel → Channel) : (s.updChannel c f).sampler = s.sampler := rfl
@[simp] theorem State.updChannel_gauges (s : State) (c : Fin 32) (f : Channel → Channel) : (s.updChannel c f).gauges = s.gauges := rfl
@[simp] theorem State.updChannel_service (s : State) (c : Fin 32) (f : Channel → Channel) : (s.updChannel c f).service = s.service := rfl

/-! ## updSlot -/

@[simp] theorem State.updSlot_pending (s : State) (k : Fin 4) (f : Slot → Slot) : (s.updSlot k f).pending = s.pending := rfl
@[simp] theorem State.updSlot_now (s : State) (k : Fin 4) (f : Slot → Slot) : (s.updSlot k f).now = s.now := rfl
@[simp] theorem State.updSlot_draws (s : State) (k : Fin 4) (f : Slot → Slot) : (s.updSlot k f).draws = s.draws := rfl
@[simp] theorem State.updSlot_power (s : State) (k : Fin 4) (f : Slot → Slot) : (s.updSlot k f).power = s.power := rfl
@[simp] theorem State.updSlot_straps (s : State) (k : Fin 4) (f : Slot → Slot) : (s.updSlot k f).straps = s.straps := rfl
@[simp] theorem State.updSlot_tables (s : State) (k : Fin 4) (f : Slot → Slot) : (s.updSlot k f).tables = s.tables := rfl
@[simp] theorem State.updSlot_nv (s : State) (k : Fin 4) (f : Slot → Slot) : (s.updSlot k f).nv = s.nv := rfl
@[simp] theorem State.updSlot_front (s : State) (k : Fin 4) (f : Slot → Slot) : (s.updSlot k f).front = s.front := rfl
@[simp] theorem State.updSlot_rear (s : State) (k : Fin 4) (f : Slot → Slot) : (s.updSlot k f).rear = s.rear := rfl
@[simp] theorem State.updSlot_routes (s : State) (k : Fin 4) (f : Slot → Slot) : (s.updSlot k f).routes = s.routes := rfl
@[simp] theorem State.updSlot_events (s : State) (k : Fin 4) (f : Slot → Slot) : (s.updSlot k f).events = s.events := rfl
@[simp] theorem State.updSlot_engine (s : State) (k : Fin 4) (f : Slot → Slot) : (s.updSlot k f).engine = { s.engine with slots := upd s.engine.slots k f } := rfl
@[simp] theorem State.updSlot_lamps (s : State) (k : Fin 4) (f : Slot → Slot) : (s.updSlot k f).lamps = s.lamps := rfl
@[simp] theorem State.updSlot_flasher (s : State) (k : Fin 4) (f : Slot → Slot) : (s.updSlot k f).flasher = s.flasher := rfl
@[simp] theorem State.updSlot_sampler (s : State) (k : Fin 4) (f : Slot → Slot) : (s.updSlot k f).sampler = s.sampler := rfl
@[simp] theorem State.updSlot_gauges (s : State) (k : Fin 4) (f : Slot → Slot) : (s.updSlot k f).gauges = s.gauges := rfl
@[simp] theorem State.updSlot_service (s : State) (k : Fin 4) (f : Slot → Slot) : (s.updSlot k f).service = s.service := rfl

/-! ## updDescriptor -/

@[simp] theorem State.updDescriptor_pending (s : State) (d : Fin 16) (f : DescriptorRecord → DescriptorRecord) : (s.updDescriptor d f).pending = s.pending := rfl
@[simp] theorem State.updDescriptor_now (s : State) (d : Fin 16) (f : DescriptorRecord → DescriptorRecord) : (s.updDescriptor d f).now = s.now := rfl
@[simp] theorem State.updDescriptor_draws (s : State) (d : Fin 16) (f : DescriptorRecord → DescriptorRecord) : (s.updDescriptor d f).draws = s.draws := rfl
@[simp] theorem State.updDescriptor_power (s : State) (d : Fin 16) (f : DescriptorRecord → DescriptorRecord) : (s.updDescriptor d f).power = s.power := rfl
@[simp] theorem State.updDescriptor_straps (s : State) (d : Fin 16) (f : DescriptorRecord → DescriptorRecord) : (s.updDescriptor d f).straps = s.straps := rfl
@[simp] theorem State.updDescriptor_tables (s : State) (d : Fin 16) (f : DescriptorRecord → DescriptorRecord) : (s.updDescriptor d f).tables = s.tables := rfl
@[simp] theorem State.updDescriptor_nv (s : State) (d : Fin 16) (f : DescriptorRecord → DescriptorRecord) : (s.updDescriptor d f).nv = s.nv := rfl
@[simp] theorem State.updDescriptor_front (s : State) (d : Fin 16) (f : DescriptorRecord → DescriptorRecord) : (s.updDescriptor d f).front = s.front := rfl
@[simp] theorem State.updDescriptor_rear (s : State) (d : Fin 16) (f : DescriptorRecord → DescriptorRecord) : (s.updDescriptor d f).rear = s.rear := rfl
@[simp] theorem State.updDescriptor_routes (s : State) (d : Fin 16) (f : DescriptorRecord → DescriptorRecord) : (s.updDescriptor d f).routes = s.routes := rfl
@[simp] theorem State.updDescriptor_events (s : State) (d : Fin 16) (f : DescriptorRecord → DescriptorRecord) : (s.updDescriptor d f).events = s.events := rfl
@[simp] theorem State.updDescriptor_engine (s : State) (d : Fin 16) (f : DescriptorRecord → DescriptorRecord) : (s.updDescriptor d f).engine = s.engine := rfl
@[simp] theorem State.updDescriptor_lamps (s : State) (d : Fin 16) (f : DescriptorRecord → DescriptorRecord) : (s.updDescriptor d f).lamps = s.lamps := rfl
@[simp] theorem State.updDescriptor_flasher (s : State) (d : Fin 16) (f : DescriptorRecord → DescriptorRecord) : (s.updDescriptor d f).flasher = s.flasher := rfl
@[simp] theorem State.updDescriptor_sampler (s : State) (d : Fin 16) (f : DescriptorRecord → DescriptorRecord) : (s.updDescriptor d f).sampler = { s.sampler with descriptors := upd s.sampler.descriptors d f } := rfl
@[simp] theorem State.updDescriptor_gauges (s : State) (d : Fin 16) (f : DescriptorRecord → DescriptorRecord) : (s.updDescriptor d f).gauges = s.gauges := rfl
@[simp] theorem State.updDescriptor_service (s : State) (d : Fin 16) (f : DescriptorRecord → DescriptorRecord) : (s.updDescriptor d f).service = s.service := rfl

/-! ## callChoice -/

@[simp] theorem State.callChoice_pending (s : State) : s.callChoice.pending = s.pending := rfl
@[simp] theorem State.callChoice_now (s : State) : s.callChoice.now = s.now := rfl
@[simp] theorem State.callChoice_draws (s : State) : s.callChoice.draws = s.draws := rfl
@[simp] theorem State.callChoice_power (s : State) : s.callChoice.power = s.power := rfl
@[simp] theorem State.callChoice_straps (s : State) : s.callChoice.straps = s.straps := rfl
@[simp] theorem State.callChoice_tables (s : State) : s.callChoice.tables = s.tables := rfl
@[simp] theorem State.callChoice_nv (s : State) : s.callChoice.nv = s.nv := rfl
@[simp] theorem State.callChoice_front (s : State) : s.callChoice.front = s.front := rfl
@[simp] theorem State.callChoice_rear (s : State) : s.callChoice.rear = s.rear := rfl
@[simp] theorem State.callChoice_routes (s : State) : s.callChoice.routes = s.routes := rfl
@[simp] theorem State.callChoice_events (s : State) : s.callChoice.events = { s.events with choiceMade := false } := rfl
@[simp] theorem State.callChoice_engine (s : State) : s.callChoice.engine = s.engine := rfl
@[simp] theorem State.callChoice_lamps (s : State) : s.callChoice.lamps = s.lamps := rfl
@[simp] theorem State.callChoice_flasher (s : State) : s.callChoice.flasher = s.flasher := rfl
@[simp] theorem State.callChoice_sampler (s : State) : s.callChoice.sampler = s.sampler := rfl
@[simp] theorem State.callChoice_gauges (s : State) : s.callChoice.gauges = s.gauges := rfl
@[simp] theorem State.callChoice_service (s : State) : s.callChoice.service = s.service := rfl

/-! ## countMiss -/

@[simp] theorem State.countMiss_pending (s : State) : s.countMiss.pending = s.pending := rfl
@[simp] theorem State.countMiss_now (s : State) : s.countMiss.now = s.now := rfl
@[simp] theorem State.countMiss_draws (s : State) : s.countMiss.draws = s.draws := rfl
@[simp] theorem State.countMiss_power (s : State) : s.countMiss.power = s.power := rfl
@[simp] theorem State.countMiss_straps (s : State) : s.countMiss.straps = s.straps := rfl
@[simp] theorem State.countMiss_tables (s : State) : s.countMiss.tables = s.tables := rfl
@[simp] theorem State.countMiss_nv (s : State) : s.countMiss.nv = s.nv := rfl
@[simp] theorem State.countMiss_front (s : State) : s.countMiss.front = s.front := rfl
@[simp] theorem State.countMiss_rear (s : State) : s.countMiss.rear = s.rear := rfl
@[simp] theorem State.countMiss_routes (s : State) : s.countMiss.routes = { s.routes with routeMiss := s.routes.routeMiss.bump } := rfl
@[simp] theorem State.countMiss_events (s : State) : s.countMiss.events = s.events := rfl
@[simp] theorem State.countMiss_engine (s : State) : s.countMiss.engine = s.engine := rfl
@[simp] theorem State.countMiss_lamps (s : State) : s.countMiss.lamps = s.lamps := rfl
@[simp] theorem State.countMiss_flasher (s : State) : s.countMiss.flasher = s.flasher := rfl
@[simp] theorem State.countMiss_sampler (s : State) : s.countMiss.sampler = s.sampler := rfl
@[simp] theorem State.countMiss_gauges (s : State) : s.countMiss.gauges = s.gauges := rfl
@[simp] theorem State.countMiss_service (s : State) : s.countMiss.service = s.service := rfl

/-! ## countReportError -/

@[simp] theorem State.countReportError_pending (s : State) : s.countReportError.pending = s.pending := rfl
@[simp] theorem State.countReportError_now (s : State) : s.countReportError.now = s.now := rfl
@[simp] theorem State.countReportError_draws (s : State) : s.countReportError.draws = s.draws := rfl
@[simp] theorem State.countReportError_power (s : State) : s.countReportError.power = s.power := rfl
@[simp] theorem State.countReportError_straps (s : State) : s.countReportError.straps = s.straps := rfl
@[simp] theorem State.countReportError_tables (s : State) : s.countReportError.tables = s.tables := rfl
@[simp] theorem State.countReportError_nv (s : State) : s.countReportError.nv = s.nv := rfl
@[simp] theorem State.countReportError_front (s : State) : s.countReportError.front = s.front := rfl
@[simp] theorem State.countReportError_rear (s : State) : s.countReportError.rear = s.rear := rfl
@[simp] theorem State.countReportError_routes (s : State) : s.countReportError.routes = { s.routes with reportError := s.routes.reportError.bump } := rfl
@[simp] theorem State.countReportError_events (s : State) : s.countReportError.events = s.events := rfl
@[simp] theorem State.countReportError_engine (s : State) : s.countReportError.engine = s.engine := rfl
@[simp] theorem State.countReportError_lamps (s : State) : s.countReportError.lamps = s.lamps := rfl
@[simp] theorem State.countReportError_flasher (s : State) : s.countReportError.flasher = s.flasher := rfl
@[simp] theorem State.countReportError_sampler (s : State) : s.countReportError.sampler = s.sampler := rfl
@[simp] theorem State.countReportError_gauges (s : State) : s.countReportError.gauges = s.gauges := rfl
@[simp] theorem State.countReportError_service (s : State) : s.countReportError.service = s.service := rfl

/-! ## setPort -/

@[simp] theorem State.setPort_pending (s : State) (p : PortId) (q : Port) : (s.setPort p q).pending = s.pending := by cases p <;> rfl
@[simp] theorem State.setPort_now (s : State) (p : PortId) (q : Port) : (s.setPort p q).now = s.now := by cases p <;> rfl
@[simp] theorem State.setPort_draws (s : State) (p : PortId) (q : Port) : (s.setPort p q).draws = s.draws := by cases p <;> rfl
@[simp] theorem State.setPort_power (s : State) (p : PortId) (q : Port) : (s.setPort p q).power = s.power := by cases p <;> rfl
@[simp] theorem State.setPort_straps (s : State) (p : PortId) (q : Port) : (s.setPort p q).straps = s.straps := by cases p <;> rfl
@[simp] theorem State.setPort_tables (s : State) (p : PortId) (q : Port) : (s.setPort p q).tables = s.tables := by cases p <;> rfl
@[simp] theorem State.setPort_nv (s : State) (p : PortId) (q : Port) : (s.setPort p q).nv = s.nv := by cases p <;> rfl
@[simp] theorem State.setPort_routes (s : State) (p : PortId) (q : Port) : (s.setPort p q).routes = s.routes := by cases p <;> rfl
@[simp] theorem State.setPort_events (s : State) (p : PortId) (q : Port) : (s.setPort p q).events = s.events := by cases p <;> rfl
@[simp] theorem State.setPort_engine (s : State) (p : PortId) (q : Port) : (s.setPort p q).engine = s.engine := by cases p <;> rfl
@[simp] theorem State.setPort_lamps (s : State) (p : PortId) (q : Port) : (s.setPort p q).lamps = s.lamps := by cases p <;> rfl
@[simp] theorem State.setPort_flasher (s : State) (p : PortId) (q : Port) : (s.setPort p q).flasher = s.flasher := by cases p <;> rfl
@[simp] theorem State.setPort_sampler (s : State) (p : PortId) (q : Port) : (s.setPort p q).sampler = s.sampler := by cases p <;> rfl
@[simp] theorem State.setPort_gauges (s : State) (p : PortId) (q : Port) : (s.setPort p q).gauges = s.gauges := by cases p <;> rfl
@[simp] theorem State.setPort_service (s : State) (p : PortId) (q : Port) : (s.setPort p q).service = s.service := by cases p <;> rfl

@[simp] theorem State.port_setPort (s : State) (p : PortId) (q : Port) : (s.setPort p q).port p = q := by cases p <;> rfl
@[simp] theorem State.port_setPort_other (s : State) (p : PortId) (q : Port) : (s.setPort p q).port p.other = s.port p.other := by
  cases p <;> rfl
@[simp] theorem State.port_other_setPort (s : State) (p : PortId) (q : Port) : (s.setPort p.other q).port p = s.port p := by
  cases p <;> rfl
@[simp] theorem State.setPort_port (s : State) (p : PortId) : s.setPort p (s.port p) = s := by cases p <;> rfl
@[simp] theorem State.setPort_setPort (s : State) (p : PortId) (q r : Port) : (s.setPort p q).setPort p r = s.setPort p r := by
  cases p <;> rfl
@[simp] theorem State.port_front (s : State) : s.port .front = s.front := rfl
@[simp] theorem State.port_rear (s : State) : s.port .rear = s.rear := rfl

@[simp] theorem State.port_elapse (dt : Time) (s : State) (p : PortId) : (s.elapse dt).port p = s.port p := by cases p <;> rfl
@[simp] theorem State.port_withTables (s : State) (t : TableStore) (p : PortId) : (s.withTables t).port p = s.port p := by cases p <;> rfl
@[simp] theorem State.port_updLoad (s : State) (l : Fin 32) (f : LoadRecord → LoadRecord) (p : PortId) : (s.updLoad l f).port p = s.port p := by cases p <;> rfl
@[simp] theorem State.port_updPod (s : State) (P : Fin 12) (f : PodRecord → PodRecord) (p : PortId) : (s.updPod P f).port p = s.port p := by cases p <;> rfl
@[simp] theorem State.port_updSource (s : State) (a : Fin 64) (f : SourceRecord → SourceRecord) (p : PortId) : (s.updSource a f).port p = s.port p := by cases p <;> rfl
@[simp] theorem State.port_updChannel (s : State) (c : Fin 32) (f : Channel → Channel) (p : PortId) : (s.updChannel c f).port p = s.port p := by cases p <;> rfl
@[simp] theorem State.port_updSlot (s : State) (k : Fin 4) (f : Slot → Slot) (p : PortId) : (s.updSlot k f).port p = s.port p := by cases p <;> rfl
@[simp] theorem State.port_updDescriptor (s : State) (d : Fin 16) (f : DescriptorRecord → DescriptorRecord) (p : PortId) : (s.updDescriptor d f).port p = s.port p := by cases p <;> rfl
@[simp] theorem State.port_callChoice (s : State) (p : PortId) : s.callChoice.port p = s.port p := by cases p <;> rfl
@[simp] theorem State.port_countMiss (s : State) (p : PortId) : s.countMiss.port p = s.port p := by cases p <;> rfl
@[simp] theorem State.port_countReportError (s : State) (p : PortId) : s.countReportError.port p = s.port p := by cases p <;> rfl

/-! ## Judgements that read one block -/

@[simp] theorem State.mode_elapse (dt : Time) (s : State) (m : Fin 16) : (s.elapse dt).mode m = s.mode m := rfl
@[simp] theorem State.ignition_elapse (dt : Time) (s : State) : (s.elapse dt).ignition = s.ignition := rfl
@[simp] theorem State.shed_elapse (dt : Time) (s : State) : (s.elapse dt).shed = s.shed := rfl
@[simp] theorem State.hubAddress_elapse (dt : Time) (s : State) : (s.elapse dt).hubAddress = s.hubAddress := rfl
@[simp] theorem State.mode_withTables (s : State) (t : TableStore) (m : Fin 16) : (s.withTables t).mode m = s.mode m := rfl
@[simp] theorem State.ignition_withTables (s : State) (t : TableStore) : (s.withTables t).ignition = s.ignition := rfl
@[simp] theorem State.shed_withTables (s : State) (t : TableStore) : (s.withTables t).shed = s.shed := rfl
@[simp] theorem State.hubAddress_withTables (s : State) (t : TableStore) : (s.withTables t).hubAddress = s.hubAddress := rfl

/-! ## One entry of a vector rewritten -/

/-- An entry after one entry is rewritten, at a numeral index (the form simp works in). -/
theorem upd_getElem {α : Type} {n : Nat} (v : Vector α n) (i : Fin n) (f : α → α) (j : Nat) (h : j < n) :
    (upd v i f)[j] = if i.val = j then f v[j] else v[j] := by
  by_cases e : i.val = j
  · subst e; simp [upd]
  · simp [upd, e]

/-- The entry rewritten. -/
@[simp] theorem upd_self {α : Type} {n : Nat} (v : Vector α n) (i : Fin n) (f : α → α) : (upd v i f)[i.val] = f v[i.val] := by
  simp [upd_getElem]

/-- Every other entry stands. -/
theorem upd_other {α : Type} {n : Nat} (v : Vector α n) {i j : Fin n} (f : α → α) (h : i ≠ j) : (upd v i f)[j] = v[j] := by
  have e : i.val ≠ j.val := fun e => h (Fin.ext e)
  simp [upd_getElem, e]

/-- Both cases at once. -/
theorem upd_get {α : Type} {n : Nat} (v : Vector α n) (i j : Fin n) (f : α → α) : (upd v i f)[j] = if i = j then f v[j] else v[j] := by
  simp [upd_getElem, Fin.ext_iff]

/-! ## Counters -/

/-- A counter that counts never goes down. -/
theorem Counter.le_bump (c : Counter) : c.toNat ≤ c.bump.toNat := by
  unfold Counter.bump
  split
  · exact Nat.le_refl _
  · next h =>
    have : c.toNat ≠ 65535 := fun e => h (BitVec.eq_of_toNat_eq e)
    have := c.isLt
    rw [BitVec.toNat_add]
    simp only [BitVec.toNat_ofNat]
    omega

/-- A counter below 65535 that counts moves. -/
theorem Counter.bump_ne {c : Counter} (b : c.toNat < 65535) : c.bump ≠ c := by
  unfold Counter.bump
  split
  · next h => exact absurd (congrArg BitVec.toNat h) (by simp; omega)
  · intro e
    have := congrArg BitVec.toNat e
    rw [BitVec.toNat_add] at this
    simp only [BitVec.toNat_ofNat] at this
    omega

/-- While the part runs, a step of the blocks is its meaning at the command's moment. -/
theorem live_running {dt : Time} {s : State} {f : State → State} (h : s.power = .running) : live dt s f = .next (f (s.elapse dt)) := by
  simp [live, h]

/-- In a hold, a step of the blocks moves the clock alone (R173). -/
theorem live_held {dt : Time} {s : State} {f : State → State} (h : s.power ≠ .running) : live dt s f = .next (s.elapse dt) := by
  simp [live, h]

/-- A step of the blocks always completes. -/
theorem live_next (dt : Time) (s : State) (f : State → State) :
    live dt s f = .next (if s.power = .running then f (s.elapse dt) else s.elapse dt) := rfl

end Sys2Proof.Machine
end

