-- ==== Sys2Proof/Laws/Tables.lean ====
section
/-! SUPPORT. The table store: what one block read can do to it, and that every entry read does no more. -/

namespace Sys2Proof.Machine

/-- The cells of a store are in canonical form. -/
abbrev TableStore.Wf (t : TableStore) : Prop := Memory.wf unlistedWord tableWords t.cells = true

/-- Block reads alone lie between two stores, and the canonical form is kept. -/
abbrev TableStore.Reads (t u : TableStore) : Prop := t.ReadsOnly u ∧ (t.Wf → u.Wf)

namespace TableStore

theorem fails_congr {t u : TableStore} {a : Nat} (d : (u.word a).data = (t.word a).data) (p : (u.word a).parity = (t.word a).parity) :
    (u.word a).fails = (t.word a).fails := by
  simp [StoredWord.fails, d, p]

theorem Reads.refl (t : TableStore) : t.Reads t := by
  exact ⟨⟨rfl, fun a => ⟨rfl, rfl, id, Or.inl⟩, fun _ => rfl, Nat.le_refl _, fun _ _ => rfl⟩, id⟩

theorem Reads.trans {t u v : TableStore} (h : t.Reads u) (k : u.Reads v) : t.Reads v := by
  obtain ⟨⟨h1, h2, h3, h5, h6⟩, h4⟩ := h
  obtain ⟨⟨k1, k2, k3, k5, k6⟩, k4⟩ := k
  refine ⟨⟨k1.trans h1, fun a => ?_, fun n => ?_, Nat.le_trans h5 k5, fun p b => ?_⟩, fun w => k4 (h4 w)⟩
  · obtain ⟨a1, a2, a3, a4⟩ := h2 a
    obtain ⟨b1, b2, b3, b4⟩ := k2 a
    refine ⟨b1.trans a1, b2.trans a2, fun m => b3 (a3 m), fun m => ?_⟩
    rcases b4 m with e | e
    · exact a4 e
    · exact Or.inr (by rw [← fails_congr a1 a2]; exact e)
  · have e := h3 n
    subst e
    exact k3 n
  · have m : u.parityCount = t.parityCount := BitVec.eq_of_toNat_eq (by have := congrArg BitVec.toNat p; omega)
    have e := h6 m b
    subst e
    exact k6 p b

/-- A word is unchanged by a mark elsewhere, and its own bits by its own mark. -/
theorem word_setWord_other (t : TableStore) {a b : Nat} (w : StoredWord) (h : b ≠ a) : (t.setWord a w).word b = t.word b :=
  Memory.read_write_other _ _ _ _ _ h

/-- A marked word reads back. -/
theorem word_setWord_marked (t : TableStore) (a : Nat) (w : StoredWord) (h : w.mark = true) : (t.setWord a w).word a = w := by
  refine Memory.read_write_listed _ _ _ _ fun e => ?_
  rw [e] at h
  simp [unlistedWord, fresh] at h

/-- In canonical form every word written reads back. -/
theorem word_setWord (t : TableStore) (h : t.Wf) (a b : Nat) (w : StoredWord) : (t.setWord a w).word b = if b = a then w else t.word b :=
  Memory.read_write _ _ _ _ _ _ h

theorem setWord_wf (t : TableStore) {a : Nat} (w : StoredWord) (ha : a < tableWords) (h : t.Wf) : (t.setWord a w).Wf :=
  Memory.write_wf _ _ _ _ _ ha h

/-- Marks set on some words: bits and other marks stand. -/
theorem markAll_spec : ∀ (bad : List Nat) (t : TableStore),
    (t.markAll bad).source = t.source ∧
      (∀ a, (t.markAll bad).word a = { t.word a with mark := (t.word a).mark || decide (a ∈ bad) }) ∧
        ((∀ a ∈ bad, a < tableWords) → t.Wf → (t.markAll bad).Wf) := by
  intro bad
  induction bad with
  | nil => intro t; refine ⟨rfl, fun a => by simp [markAll], fun _ h => h⟩
  | cons b bad ih =>
    intro t
    obtain ⟨i1, i2, i3⟩ := ih (t.setWord b { t.word b with mark := true })
    refine ⟨i1, fun a => ?_, fun hb hw => ?_⟩
    · have e : t.markAll (b :: bad) = (t.setWord b { t.word b with mark := true }).markAll bad := rfl
      rw [e, i2 a]
      by_cases h : a = b
      · subst h; rw [word_setWord_marked _ _ _ rfl]; simp
      · rw [word_setWord_other _ _ h]; simp [h]
    · exact i3 (fun a ha => hb a (List.mem_cons_of_mem _ ha)) (setWord_wf t _ (hb b (by simp)) hw)

theorem mem_failing {t : TableStore} {a n b : Nat} : b ∈ t.failing a n ↔ (a ≤ b ∧ b < a + n) ∧ (t.word b).fails = true := by
  simp [failing, List.mem_range']
  intro _
  constructor
  · rintro ⟨i, h, e⟩; omega
  · rintro ⟨h1, h2⟩; exact ⟨b - a, by omega, by omega⟩

/-- A block read that finds no failing word gives the words' data and moves nothing (R10). -/
theorem readBlock_good {t : TableStore} {a n : Nat} (h : t.failing a n = []) :
    t.readBlock a n = (t, some ((List.range' a n).map fun b => (t.word b).data)) := by
  simp [readBlock, h]

/-- A block read that finds failing words: PARITY counts once, each failing word is marked, the entry is given to no one (R10). -/
theorem readBlock_bad {t : TableStore} {a n : Nat} (h : t.failing a n ≠ []) :
    t.readBlock a n = ({ t.markAll (t.failing a n) with parityCount := t.parityCount.bump }, none) := by
  unfold readBlock
  split
  · rename_i e; exact absurd e h
  · rfl

/-- A read that gives data leaves the store as it was. -/
theorem readBlock_some {t : TableStore} {a n : Nat} {l : List Word16} (h : (t.readBlock a n).2 = some l) : (t.readBlock a n).1 = t := by
  by_cases k : t.failing a n = []
  · rw [readBlock_good k]
  · rw [readBlock_bad k] at h
    cases h

/-- A read that gives none counts PARITY once. -/
theorem readBlock_none {t : TableStore} {a n : Nat} (h : (t.readBlock a n).2 = none) :
    (t.readBlock a n).1.parityCount = t.parityCount.bump := by
  by_cases k : t.failing a n = []
  · rw [readBlock_good k] at h
    cases h
  · rw [readBlock_bad k]

/-- A slot that reads good leaves the store as it was. -/
theorem directory_some {t : TableStore} {a : Fin 64} {e : DirectoryEntry} (h : (t.directory a).2 = some e) : (t.directory a).1 = t := by
  obtain ⟨l, k, _⟩ := Option.map_eq_some_iff.mp h
  exact readBlock_some k

/-- An EVENT entry that reads good leaves the store as it was. -/
theorem event_some {t : TableStore} {c : Fin 32} {e : EventEntry} (h : (t.event c).2 = some e) : (t.event c).1 = t := by
  obtain ⟨l, k, _⟩ := Option.map_eq_some_iff.mp h
  exact readBlock_some k

/-- A POD entry that reads good leaves the store as it was. -/
theorem pod_some {t : TableStore} {P : Fin 12} {e : PodEntry} (h : (t.pod P).2 = some e) : (t.pod P).1 = t := by
  obtain ⟨l, k, _⟩ := Option.map_eq_some_iff.mp h
  exact readBlock_some k

/-- One block read does no more than a block read may. -/
theorem readBlock_reads (t : TableStore) (a n : Nat) (h : a + n ≤ tableWords) : t.Reads (t.readBlock a n).1 := by
  by_cases e : t.failing a n = []
  · rw [readBlock_good e]; exact .refl t
  · rw [readBlock_bad e]
    obtain ⟨m1, m2, m3⟩ := markAll_spec (t.failing a n) t
    refine ⟨⟨m1, fun b => ?_, fun nf => ?_, Counter.le_bump _, fun p b => absurd p (Counter.bump_ne b)⟩, fun w => m3 (fun b hb => ?_) w⟩
    · have : ({ t.markAll (t.failing a n) with parityCount := t.parityCount.bump } : TableStore).word b = (t.markAll (t.failing a n)).word b := rfl
      rw [this, m2 b]
      refine ⟨rfl, rfl, fun x => by simp [x], fun x => ?_⟩
      simp only [Bool.or_eq_true, decide_eq_true_eq] at x
      rcases x with x | x
      · exact Or.inl x
      · exact Or.inr (mem_failing.mp x).2
    · refine absurd ?_ e
      rw [List.eq_nil_iff_forall_not_mem]
      intro b hb
      have := (mem_failing.mp hb).2
      rw [nf b] at this
      exact Bool.noConfusion this
    · have := (mem_failing.mp hb).1
      omega

theorem directory_reads (t : TableStore) (a : Fin 64) : t.Reads (t.directory a).1 :=
  t.readBlock_reads _ _ (by have := a.isLt; simp only [address, Area.base, tableWords]; omega)

theorem route_reads (t : TableStore) (i : Fin 128) : t.Reads (t.route i).1 :=
  t.readBlock_reads _ _ (by have := i.isLt; simp only [address, Area.base, tableWords]; omega)

theorem event_reads (t : TableStore) (c : Fin 32) : t.Reads (t.event c).1 :=
  t.readBlock_reads _ _ (by have := c.isLt; simp only [address, Area.base, tableWords]; omega)

theorem action_reads (t : TableStore) (i : Fin 256) : t.Reads (t.action i).1 :=
  t.readBlock_reads _ _ (by have := i.isLt; simp only [address, Area.base, tableWords]; omega)

theorem load_reads (t : TableStore) (l : Fin 32) : t.Reads (t.load l).1 :=
  t.readBlock_reads _ _ (by have := l.isLt; simp only [address, Area.base, tableWords]; omega)

theorem pod_reads (t : TableStore) (P : Fin 12) : t.Reads (t.pod P).1 :=
  t.readBlock_reads _ _ (by have := P.isLt; simp only [address, Area.base, tableWords]; omega)

theorem descriptor_reads (t : TableStore) (d : Fin 16) : t.Reads (t.descriptor d).1 :=
  t.readBlock_reads _ _ (by have := d.isLt; simp only [address, Area.base, tableWords]; omega)

theorem gauge_reads (t : TableStore) (g : Fin 4) : t.Reads (t.gauge g).1 :=
  t.readBlock_reads _ _ (by have := g.isLt; simp only [address, Area.base, tableWords]; omega)

theorem fan_reads (t : TableStore) : t.Reads t.fan.1 :=
  t.readBlock_reads _ _ (by simp only [address, Area.base, tableWords]; omega)

theorem curve_reads (t : TableStore) (c : Fin 8) : t.Reads (t.curve c).1 :=
  t.readBlock_reads _ _ (by have := c.isLt; simp only [address, Area.base, tableWords]; omega)

theorem param_reads (t : TableStore) (p : Param) : t.Reads (t.param p).1 :=
  t.readBlock_reads _ _ (by cases p <;> simp [address, Area.base, tableWords, Param.index])

/-- A parameter's block read gives the value a READ-STATE reads (R6, R7, R12). -/
theorem param_value (t : TableStore) (p : Param) : (t.param p).2 = t.peekParam p := by
  unfold param peekParam
  by_cases h : (t.word (address .parameters p.index)).fails = true
  · have e : t.failing (address .parameters p.index) 1 ≠ [] := by simp [failing, List.range', h]
    simp [readBlock_bad e, h]
  · have e : t.failing (address .parameters p.index) 1 = [] := by simp [failing, List.range', h]
    simp [readBlock_good e, h, wordAt, List.range']

/-- Block reads leave what a block read gives as it was. -/
theorem Reads.readBlock_snd {t u : TableStore} (h : t.Reads u) (a n : Nat) : (u.readBlock a n).2 = (t.readBlock a n).2 := by
  have hw := h.1.2.1
  have e : u.failing a n = t.failing a n := by
    unfold failing
    refine List.filter_congr fun b _ => ?_
    exact fails_congr (hw b).1 (hw b).2.1
  have m : (List.range' a n).map (fun b => (u.word b).data) = (List.range' a n).map fun b => (t.word b).data :=
    List.map_congr_left fun b _ => (hw b).1
  by_cases g : t.failing a n = []
  · rw [readBlock_good g, readBlock_good (e.trans g), m]
  · rw [readBlock_bad g, readBlock_bad (e ▸ g)]

theorem Reads.peekParam {t u : TableStore} (h : t.Reads u) (p : Param) : u.peekParam p = t.peekParam p := by
  have hw := h.1.2.1 (address .parameters p.index)
  have f := fails_congr hw.1 hw.2.1
  simp only [TableStore.peekParam, f, hw.1]

theorem Reads.param {t u : TableStore} (h : t.Reads u) (p : Param) : (u.param p).2 = (t.param p).2 := by
  rw [param_value, param_value, h.peekParam]

theorem Reads.directory {t u : TableStore} (h : t.Reads u) (a : Fin 64) : (u.directory a).2 = (t.directory a).2 := by
  simp [TableStore.directory, h.readBlock_snd]

theorem Reads.route {t u : TableStore} (h : t.Reads u) (i : Fin 128) : (u.route i).2 = (t.route i).2 := by
  simp [TableStore.route, h.readBlock_snd]

theorem Reads.event {t u : TableStore} (h : t.Reads u) (c : Fin 32) : (u.event c).2 = (t.event c).2 := by
  simp [TableStore.event, h.readBlock_snd]

theorem Reads.action {t u : TableStore} (h : t.Reads u) (i : Fin 256) : (u.action i).2 = (t.action i).2 := by
  simp [TableStore.action, h.readBlock_snd]

theorem Reads.load {t u : TableStore} (h : t.Reads u) (l : Fin 32) : (u.load l).2 = (t.load l).2 := by
  simp [TableStore.load, h.readBlock_snd]

theorem Reads.pod {t u : TableStore} (h : t.Reads u) (P : Fin 12) : (u.pod P).2 = (t.pod P).2 := by
  simp [TableStore.pod, h.readBlock_snd]

theorem Reads.descriptor {t u : TableStore} (h : t.Reads u) (d : Fin 16) : (u.descriptor d).2 = (t.descriptor d).2 := by
  simp [TableStore.descriptor, h.readBlock_snd]

theorem Reads.gauge {t u : TableStore} (h : t.Reads u) (g : Fin 4) : (u.gauge g).2 = (t.gauge g).2 := by
  simp [TableStore.gauge, h.readBlock_snd]

theorem Reads.fan {t u : TableStore} (h : t.Reads u) : u.fan.2 = t.fan.2 := by
  simp [TableStore.fan, h.readBlock_snd]

theorem Reads.curve {t u : TableStore} (h : t.Reads u) (c : Fin 8) : (u.curve c).2 = (t.curve c).2 := by
  simp [TableStore.curve, h.readBlock_snd]

/-! ## Whole images -/

/-- A store filled whole: every word is the image's, freshly written (R8, R13). -/
theorem word_fill (t : TableStore) (image : Nat → Word16) (source : TableSource) (a : Nat) (h : a < tableWords) :
    (t.fill image source).word a = fresh (image a) := by
  simp [fill, word, Memory.read_ofFn, h]

theorem fill_wf (t : TableStore) (image : Nat → Word16) (source : TableSource) : (t.fill image source).Wf := by
  have h := Memory.ofFn_wf unlistedWord tableWords fun a => fresh (image a)
  simpa only [TableStore.Wf, fill] using h

theorem writeWords_wf : ∀ (ws : List Word16) (t : TableStore) (a : Nat), a + ws.length ≤ tableWords → t.Wf → (t.writeWords a ws).Wf := by
  intro ws
  induction ws with
  | nil => intro t a _ h; exact h
  | cons w ws ih =>
    intro t a h hw
    simp only [List.length_cons] at h
    exact ih _ _ (by omega) (setWord_wf t _ (by omega) hw)

/-- The words a WRITE-TABLE writes, and every other word (R8, R166). -/
theorem word_writeWords : ∀ (ws : List Word16) (t : TableStore) (a b : Nat), a + ws.length ≤ tableWords → t.Wf →
    (t.writeWords a ws).word b = if h : a ≤ b ∧ b < a + ws.length then fresh (ws[b - a]'(by omega)) else t.word b := by
  intro ws
  induction ws with
  | nil =>
    intro t a b _ _
    have n : ¬(a ≤ b ∧ b < a + ([] : List Word16).length) := by simp
    rw [dif_neg n]
    rfl
  | cons w ws ih =>
    intro t a b h hw
    simp only [List.length_cons] at h
    have hs := setWord_wf t (fresh w) (show a < tableWords by omega) hw
    simp only [writeWords]
    rw [ih _ _ b (by omega) hs]
    by_cases e : b = a
    · subst e
      have n1 : ¬(b + 1 ≤ b ∧ b < b + 1 + ws.length) := by omega
      rw [dif_neg n1]
      simp [word_setWord t hw]
    · by_cases c : a + 1 ≤ b ∧ b < a + 1 + ws.length
      · have c' : a ≤ b ∧ b < a + (w :: ws).length := by simp; omega
        have i : b - a = (b - (a + 1)) + 1 := by omega
        rw [dif_pos c, dif_pos c']
        simp only [i, List.getElem_cons_succ]
      · have c' : ¬(a ≤ b ∧ b < a + (w :: ws).length) := by simp; omega
        rw [dif_neg c, dif_neg c', word_setWord t hw, if_neg e]

end TableStore

end Sys2Proof.Machine
end

