-- ==== Sys2Proof/Laws/Touch.lean ====
section
/-! SUPPORT. What each shared operation can touch, said once: the state it answers is the state it was given with some fields
rewritten, and its table store has at most been read. -/

namespace Sys2Proof.Machine

/-- A relation that a step of a fold keeps relates the fold's ends. -/
theorem foldl_rel {α β : Type} {R : α → α → Prop} (refl : ∀ a, R a a) (trans : ∀ {a b c}, R a b → R b c → R a c) {f : α → β → α}
    (step : ∀ a b, R a (f a b)) : ∀ (l : List β) (a : α), R a (l.foldl f a) := by
  intro l
  induction l with
  | nil => intro a; exact refl a
  | cons b l ih => intro a; exact trans (step a b) (ih (f a b))

/-! ## Events -/

/-- Between two event blocks only levels, pending edges, EDGE-LOST and the call for a choice differ. -/
abbrev EventBlock.Reported (b c : EventBlock) : Prop :=
  (∀ k : Fin 32, (c.channels[k]).masked = (b.channels[k]).masked ∧ (c.channels[k]).inService = (b.channels[k]).inService) ∧
    c.rawIgnition = b.rawIgnition ∧ c.debounced = b.debounced ∧ c.debounceTimer = b.debounceTimer

/-- Only the event block is touched, by reports, and the table store is read. -/
abbrev TouchesEvents (s u : State) : Prop :=
  ∃ t e, u = { s with tables := t, events := e } ∧ s.tables.Reads t ∧ s.events.Reported e

theorem TouchesEvents.refl (s : State) : TouchesEvents s s :=
  ⟨s.tables, s.events, rfl, .refl _, fun _ => ⟨rfl, rfl⟩, rfl, rfl, rfl⟩

theorem TouchesEvents.trans {s u v : State} (h : TouchesEvents s u) (k : TouchesEvents u v) : TouchesEvents s v := by
  obtain ⟨t, e, rfl, h1, h2, h3, h4, h5⟩ := h
  obtain ⟨t', e', rfl, k1, k2, k3, k4, k5⟩ := k
  exact ⟨t', e', rfl, h1.trans k1, fun c => ⟨(k2 c).1.trans (h2 c).1, (k2 c).2.trans (h2 c).2⟩, k3.trans h3, k4.trans h4, k5.trans h5⟩

theorem EventBlock.acceptEdge_reported (b : EventBlock) (c : Fin 32) (edge : Edge) : b.Reported (b.acceptEdge c edge) := by
  refine ⟨fun k => ?_, rfl, rfl, rfl⟩
  simp only [EventBlock.acceptEdge, upd_get]
  split <;> exact ⟨rfl, rfl⟩

theorem reportLevel_touches (s : State) (c : Fin 32) (closed : Bool) : TouchesEvents s (reportLevel s c closed) := by
  have lvl : ∀ b : EventBlock, b.Reported { b with channels := upd b.channels c fun ch => { ch with level := levelOf closed } } := by
    intro b
    refine ⟨fun k => ?_, rfl, rfl, rfl⟩
    simp only [upd_get]
    split <;> exact ⟨rfl, rfl⟩
  refine ⟨_, _, rfl, ?_, ?_⟩
  · simp only [EventBlock.report]
    split
    · exact .refl _
    · exact TableStore.event_reads _ _
  · simp only [EventBlock.report]
    split
    · exact lvl _
    · split
      · split
        · obtain ⟨a1, a2, a3, a4⟩ := lvl s.events
          obtain ⟨b1, b2, b3, b4⟩ := EventBlock.acceptEdge_reported
            { s.events with channels := upd s.events.channels c fun ch => { ch with level := levelOf closed } } c (by assumption)
          exact ⟨fun k => ⟨(b1 k).1.trans (a1 k).1, (b1 k).2.trans (a1 k).2⟩, b2.trans a2, b3.trans a3, b4.trans a4⟩
        · exact lvl _
      · exact lvl _

theorem reportTo_touches (s : State) (c : Option (Fin 32)) (closed : Bool) : TouchesEvents s (reportTo s c closed) := by
  cases c with
  | none => exact .refl s
  | some c => exact reportLevel_touches s c closed

theorem routeSwitch_touches (s : State) (e : RouteEntry) (payload : List Byte) : TouchesEvents s (routeSwitch s e payload) := by
  refine foldl_rel TouchesEvents.refl TouchesEvents.trans (fun a i => ?_) _ _
  split
  · split
    · exact reportLevel_touches _ _ _
    · exact .refl _
  · exact .refl _

/-! ## Gauges -/

/-- Between two gauge drives only targets differ. -/
abbrev GaugeDrive.Retargeted (d e : GaugeDrive) : Prop :=
  (∀ g : Fin 4, (e.gauges[g]).deflection = (d.gauges[g]).deflection ∧ (e.gauges[g]).duty = (d.gauges[g]).duty ∧
    (e.gauges[g]).undersupplied = (d.gauges[g]).undersupplied ∧ (e.gauges[g]).stale = (d.gauges[g]).stale ∧
      (e.gauges[g]).held = (d.gauges[g]).held) ∧ e.fan = d.fan ∧ e.updateTimer = d.updateTimer

theorem GaugeDrive.Retargeted.refl (d : GaugeDrive) : d.Retargeted d := ⟨fun _ => ⟨rfl, rfl, rfl, rfl, rfl⟩, rfl, rfl⟩

theorem GaugeDrive.Retargeted.trans {c d e : GaugeDrive} (h : c.Retargeted d) (k : d.Retargeted e) : c.Retargeted e :=
  ⟨fun g => ⟨(k.1 g).1.trans (h.1 g).1, (k.1 g).2.1.trans (h.1 g).2.1, (k.1 g).2.2.1.trans (h.1 g).2.2.1,
    (k.1 g).2.2.2.1.trans (h.1 g).2.2.2.1, (k.1 g).2.2.2.2.trans (h.1 g).2.2.2.2⟩, k.2.1.trans h.2.1, k.2.2.trans h.2.2⟩

theorem recompute_touches (origin : GaugeSource) (reading : Nat) (p : TableStore × GaugeDrive) (g : Fin 4) :
    p.1.Reads (recompute origin reading p g).1 ∧ p.2.Retargeted (recompute origin reading p g).2 := by
  have r := p.1.gauge_reads g
  simp only [recompute]
  split
  · exact ⟨r, .refl _⟩
  · split
    · refine ⟨r.trans (TableStore.curve_reads _ _), ?_⟩
      simp only
      split
      · refine ⟨fun k => ?_, rfl, rfl⟩
        simp only [upd_get]
        split <;> exact ⟨rfl, rfl, rfl, rfl, rfl⟩
      · exact .refl _
    · exact ⟨r, .refl _⟩

/-- Only targets are touched, and the table store is read. -/
abbrev TouchesTargets (s u : State) : Prop := ∃ t g, u = { s with tables := t, gauges := g } ∧ s.tables.Reads t ∧ s.gauges.Retargeted g

theorem handReading_touches (s : State) (origin : GaugeSource) (reading : Nat) : TouchesTargets s (handReading s origin reading) := by
  have h := foldl_rel (R := fun p q : TableStore × GaugeDrive => p.1.Reads q.1 ∧ p.2.Retargeted q.2)
    (fun p => ⟨.refl _, .refl _⟩) (fun h k => ⟨h.1.trans k.1, h.2.trans k.2⟩) (recompute_touches origin reading) (List.finRange 4)
    (s.tables, s.gauges)
  exact ⟨_, _, rfl, h.1, h.2⟩

/-- Reading the supply value reads at most one parameter (R138). -/
theorem supplyValue_reads (t : TableStore) (a : Option Nat) : t.Reads (supplyValue t a).1 := by
  cases a with
  | none => exact t.param_reads _
  | some a => exact .refl t

theorem updateGauge_reads (m : Sampler) (p : TableStore × GaugeDrive) (g : Fin 4) : p.1.Reads (updateGauge m p g).1 := by
  have r := p.1.gauge_reads g
  simp only [updateGauge]
  split
  · exact r
  · split
    · exact r
    · split
      · exact r.trans (supplyValue_reads _ _)
      · exact (r.trans (supplyValue_reads _ _)).trans (TableStore.param_reads _ _)

theorem rampFan_reads (m : Sampler) (shed : Bool) (request : Nat) (p : TableStore × GaugeDrive) : p.1.Reads (rampFan m shed request p).1 := by
  have r := p.1.fan_reads
  simp only [rampFan]
  split
  · exact r
  · split
    · split
      · exact r.trans (supplyValue_reads _ _)
      · exact (((r.trans (supplyValue_reads _ _)).trans (TableStore.param_reads _ _)).trans (TableStore.param_reads _ _)).trans
          (TableStore.param_reads _ _)
    · exact r

/-- Only the gauge drive is touched, and the table store is read. -/
abbrev TouchesGauges (s u : State) : Prop := ∃ t g, u = { s with tables := t, gauges := g } ∧ s.tables.Reads t

theorem updateGauges_touches (s : State) : TouchesGauges s (updateGauges s) := by
  unfold updateGauges
  split
  · refine ⟨_, _, rfl, ?_⟩
    have h := foldl_rel (R := fun p q : TableStore × GaugeDrive => p.1.Reads q.1) (fun p => .refl _) (fun h k => h.trans k)
      (updateGauge_reads s.sampler) (List.finRange 4) (s.tables, s.gauges)
    exact TableStore.Reads.trans h (rampFan_reads _ _ _ _)
  · exact ⟨s.tables, _, rfl, .refl _⟩

/-! ## Samples -/

/-- Only descriptors, channels by reports, and targets are touched, and the table store is read. -/
abbrev TouchesSamples (s u : State) : Prop :=
  ∃ t e v g, u = { s with tables := t, events := e, sampler := { s.sampler with descriptors := v }, gauges := g } ∧ s.tables.Reads t ∧
    s.events.Reported e ∧ s.gauges.Retargeted g

theorem TouchesSamples.refl (s : State) : TouchesSamples s s :=
  ⟨s.tables, s.events, s.sampler.descriptors, s.gauges, rfl, .refl _, ⟨fun _ => ⟨rfl, rfl⟩, rfl, rfl, rfl⟩, .refl _⟩

theorem TouchesSamples.trans {s u v : State} (h : TouchesSamples s u) (k : TouchesSamples u v) : TouchesSamples s v := by
  obtain ⟨t, e, d, g, rfl, h1, ⟨h2, h3, h4, h5⟩, h6⟩ := h
  obtain ⟨t', e', d', g', rfl, k1, ⟨k2, k3, k4, k5⟩, k6⟩ := k
  exact ⟨t', e', d', g', rfl, h1.trans k1,
    ⟨fun c => ⟨(k2 c).1.trans (h2 c).1, (k2 c).2.trans (h2 c).2⟩, k3.trans h3, k4.trans h4, k5.trans h5⟩, h6.trans k6⟩

theorem announceWindow_touches (s : State) (d : Fin 16) (e : DescriptorEntry) (x y : ThresholdState) (n : Nat) :
    TouchesSamples s (announceWindow s d e x y n) := by
  unfold announceWindow
  have r : TouchesEvents s (if y = x then s else reportTo s e.channel (y == .active)) := by
    split
    · exact .refl s
    · exact reportTo_touches _ _ _
  obtain ⟨t, v, h, h1, h2⟩ := r
  rw [h]
  obtain ⟨t', g', h', k1, k2⟩ := handReading_touches { s with tables := t, events := v } (.descriptor d) n
  exact ⟨t', v, s.sampler.descriptors, g', h', h1.trans k1, h2, k2⟩

theorem presentSample_touches (s : State) (d : Fin 16) (code : Nat) : TouchesSamples s (presentSample s d code) := by
  have r := s.tables.descriptor_reads d
  have w : TouchesSamples s (s.withTables (s.tables.descriptor d).1) :=
    ⟨_, s.events, s.sampler.descriptors, s.gauges, rfl, r, ⟨fun _ => ⟨rfl, rfl⟩, rfl, rfl, rfl⟩, .refl _⟩
  have u : ∀ f, TouchesSamples s ((s.withTables (s.tables.descriptor d).1).updDescriptor d f) := fun f =>
    ⟨_, s.events, _, s.gauges, rfl, r, ⟨fun _ => ⟨rfl, rfl⟩, rfl, rfl, rfl⟩, .refl _⟩
  unfold presentSample
  simp only
  split
  · exact w
  · split
    · split
      · exact (u _).trans (announceWindow_touches _ _ _ _ _ _)
      · exact u _
    · exact u _

theorem routeSender_touches (s : State) (e : RouteEntry) (payload : List Byte) : TouchesSamples s (routeSender s e payload) := by
  refine foldl_rel TouchesSamples.refl TouchesSamples.trans (fun a i => ?_) _ _
  split
  · split
    · exact presentSample_touches _ _ _
    · exact .refl _
  · exact .refl _

/-! ## Lamps -/

/-- Only the load block and the two queues are touched, and the table store is read. -/
abbrev TouchesLamps (s u : State) : Prop :=
  ∃ t a b l, u = { s with tables := t, front := { s.front with queue := a }, rear := { s.rear with queue := b }, lamps := l } ∧ s.tables.Reads t ∧
    l.fadeTimer = s.lamps.fadeTimer

/-- The same, the load records untouched as well. -/
abbrev TouchesPods (s u : State) : Prop := TouchesLamps s u ∧ u.lamps.loads = s.lamps.loads

theorem TouchesLamps.refl (s : State) : TouchesLamps s s := ⟨s.tables, s.front.queue, s.rear.queue, s.lamps, rfl, .refl _, rfl⟩

theorem TouchesLamps.trans {s u v : State} (h : TouchesLamps s u) (k : TouchesLamps u v) : TouchesLamps s v := by
  obtain ⟨t, a, b, l, rfl, h1, h2⟩ := h
  obtain ⟨t', a', b', l', rfl, k1, k2⟩ := k
  exact ⟨t', a', b', l', rfl, h1.trans k1, k2.trans h2⟩

theorem TouchesPods.refl (s : State) : TouchesPods s s := ⟨.refl s, rfl⟩

theorem TouchesPods.trans {s u v : State} (h : TouchesPods s u) (k : TouchesPods u v) : TouchesPods s v := ⟨h.1.trans k.1, k.2.trans h.2⟩

theorem withTables_pods (s : State) (t : TableStore) (h : s.tables.Reads t) : TouchesPods s (s.withTables t) :=
  ⟨⟨t, s.front.queue, s.rear.queue, s.lamps, rfl, h, rfl⟩, rfl⟩

theorem updPod_pods (s : State) (P : Fin 12) (f : PodRecord → PodRecord) : TouchesPods s (s.updPod P f) :=
  ⟨⟨s.tables, s.front.queue, s.rear.queue, _, rfl, .refl _, rfl⟩, rfl⟩

theorem Port.coalesce_queue {q r : Port} {P : Fin 12} {f : Frame} (h : q.coalesce P f = some r) : r = { q with queue := r.queue } := by
  unfold Port.coalesce at h
  split at h
  · injection h with h; rw [← h]
  · split at h
    · injection h with h; rw [← h]; rfl
    · cases h

theorem setPort_queue_pods (s : State) (p : PortId) (r : Port) (h : r = { s.port p with queue := r.queue }) : TouchesPods s (s.setPort p r) := by
  cases p with
  | front => exact ⟨⟨s.tables, r.queue, s.rear.queue, s.lamps, by rw [h]; rfl, .refl _, rfl⟩, rfl⟩
  | rear => exact ⟨⟨s.tables, s.front.queue, r.queue, s.lamps, by rw [h]; rfl, .refl _, rfl⟩, rfl⟩

theorem offerLampcmd_touches (s : State) (P : Fin 12) (e : PodEntry) : TouchesPods s (offerLampcmd s P e) := by
  unfold offerLampcmd
  split
  · rename_i q h
    exact (setPort_queue_pods s e.port q (Port.coalesce_queue h)).trans (updPod_pods _ _ _)
  · exact updPod_pods _ _ _

theorem produceLampcmd_touches (s : State) (P : Fin 12) : TouchesPods s (produceLampcmd s P) := by
  have w := withTables_pods s _ (s.tables.pod_reads P)
  unfold produceLampcmd
  simp only
  split
  · split
    · exact w.trans (updPod_pods _ _ _)
    · exact w.trans (offerLampcmd_touches _ _ _)
  · exact w.trans (updPod_pods _ _ _)

theorem mergePod_touches (s : State) (P : Fin 12) : TouchesPods s (mergePod s P) := by
  unfold mergePod
  simp only
  split
  · exact .refl s
  · exact (updPod_pods _ _ _).trans (produceLampcmd_touches _ _)

theorem resolveLoad_reads (v : LampEnv) (fade : Bool) (p : TableStore × Vector LoadRecord 32) (l : Fin 32) :
    p.1.Reads (resolveLoad v fade p l).1 := TableStore.load_reads _ _

theorem resolveLoads_touches (s : State) (fade : Bool) (ls : List (Fin 32)) : TouchesLamps s (resolveLoads s fade ls) := by
  unfold resolveLoads
  simp only
  have h := foldl_rel (R := fun p q : TableStore × Vector LoadRecord 32 => p.1.Reads q.1) (fun p => .refl _) (fun h k => h.trans k)
    (resolveLoad_reads s.lampEnv fade) ls (s.tables, s.lamps.loads)
  have m := foldl_rel TouchesPods.refl TouchesPods.trans mergePod_touches (List.finRange 12)
    { s with
      tables := (ls.foldl (resolveLoad s.lampEnv fade) (s.tables, s.lamps.loads)).1
      lamps := { s.lamps with loads := (ls.foldl (resolveLoad s.lampEnv fade) (s.tables, s.lamps.loads)).2 } }
  exact TouchesLamps.trans ⟨_, s.front.queue, s.rear.queue, _, rfl, h, rfl⟩ m.1

theorem resolveAll_touches (s : State) : TouchesLamps s (resolveAll s) := resolveLoads_touches s false _

theorem refillFrom_touches (p : PortId) : ∀ (l : List (Fin 12)) (s : State), TouchesPods s (refillFrom p l s) := by
  intro l
  induction l with
  | nil => intro s; exact .refl s
  | cons P l ih =>
    intro s
    have w := withTables_pods s _ (s.tables.pod_reads P)
    simp only [refillFrom]
    split
    · split
      · exact (w.trans (updPod_pods _ _ _)).trans (ih _)
      · split
        · exact w.trans (ih _)
        · split
          · exact (w.trans (updPod_pods _ _ _)).trans (ih _)
          · split
            · rename_i q h
              exact ((w.trans (setPort_queue_pods _ p q (Port.coalesce_queue h))).trans (updPod_pods _ _ _)).trans (ih _)
            · exact w
    · exact ih s

theorem refill_touches (s : State) (p : PortId) : TouchesPods s (refill s p) := refillFrom_touches p _ s

theorem startRefresh_touches (s : State) (P : Fin 12) : TouchesPods s (startRefresh s P) :=
  (withTables_pods s _ (s.tables.param_reads _)).trans (updPod_pods _ _ _)

theorem startReport_touches (s : State) (P : Fin 12) : TouchesPods s (startReport s P) :=
  (withTables_pods s _ (s.tables.param_reads _)).trans (updPod_pods _ _ _)

theorem judgeLoad_reads (now : Time) (P : Fin 12) (payload : List Byte) (p : TableStore × Vector LoadRecord 32 × List (Fin 32)) (l : Fin 32) :
    p.1.Reads (judgeLoad now P payload p l).1 := by
  have r := p.1.load_reads l
  simp only [judgeLoad]
  split
  · exact .refl _
  · split
    · split
      · exact r
      · split
        · refine r.trans ?_
          simp only [tripLoad]
          split
          · exact TableStore.param_reads _ _
          · exact (TableStore.param_reads _ _).trans (TableStore.param_reads _ _)
        · refine r.trans ?_
          unfold proveLoad
          split
          · exact .refl _
          · split
            · simp only
              split
              · exact TableStore.param_reads _ _
              · exact TableStore.param_reads _ _
            · exact .refl _
    · exact .refl _

theorem takeReport_touches (s : State) (P : Fin 12) (payload : List Byte) : TouchesLamps s (takeReport s P payload) := by
  unfold takeReport
  simp only
  have a := (updPod_pods s P fun r => { r with state := .live }).trans (startReport_touches _ P)
  generalize startReport (s.updPod P fun r => { r with state := .live }) P = u at a ⊢
  have h := foldl_rel (R := fun p q : TableStore × Vector LoadRecord 32 × List (Fin 32) => p.1.Reads q.1) (fun p => .refl _)
    (fun h k => h.trans k) (judgeLoad_reads u.now P payload) (List.finRange 32) (u.tables, u.lamps.loads, [])
  generalize (List.finRange 32).foldl (judgeLoad u.now P payload) (u.tables, u.lamps.loads, []) = r at h ⊢
  have b : TouchesLamps u { u with tables := r.1, lamps := { u.lamps with loads := r.2.1 } } :=
    ⟨_, u.front.queue, u.rear.queue, _, rfl, h, rfl⟩
  split
  · exact a.1.trans b
  · exact (a.1.trans b).trans (resolveLoads_touches _ _ _)

/-! ## Flasher -/

theorem judgeRateAt_reads (v : LampEnv) (loads : Vector LoadRecord 32) (p : TableStore × Rate) (l : Fin 32) :
    p.1.Reads (judgeRateAt v loads p l).1 := TableStore.load_reads _ _

theorem judgeRate_reads (s : State) : s.tables.Reads (judgeRate s).1 :=
  foldl_rel (R := fun p q : TableStore × Rate => p.1.Reads q.1) (fun _ => .refl _) (fun h k => h.trans k)
    (judgeRateAt_reads s.lampEnv s.lamps.loads) (List.finRange 32) (s.tables, .normal)

/-- Only the flasher is touched, and the table store is read. -/
abbrev TouchesFlasher (s u : State) : Prop := ∃ t f, u = { s with tables := t, flasher := f } ∧ s.tables.Reads t

theorem startPhase_touches (s : State) (phase : FlasherState) : TouchesFlasher s (startPhase s phase) :=
  ⟨_, _, rfl, (judgeRate_reads s).trans (TableStore.param_reads _ _)⟩

theorem settleFlasher_touches (s : State) : TouchesFlasher s (settleFlasher s) := by
  unfold settleFlasher
  split
  · split
    · obtain ⟨t, f, h, r⟩ := startPhase_touches { s with flasher := { s.flasher with tick := some (s.now + Config.ms10) } } .lit
      exact ⟨t, f, h, r⟩
    · exact ⟨s.tables, s.flasher, rfl, .refl _⟩
  · split
    · exact ⟨s.tables, s.flasher, rfl, .refl _⟩
    · exact ⟨s.tables, _, rfl, .refl _⟩

/-- The flasher, the load block and the queues are touched, and the table store is read. -/
abbrev TouchesPhase (s u : State) : Prop :=
  ∃ t a b l f, u = { s with tables := t, front := { s.front with queue := a }, rear := { s.rear with queue := b }, lamps := l, flasher := f } ∧
    s.tables.Reads t ∧ l.fadeTimer = s.lamps.fadeTimer

theorem tickFlasher_touches (s : State) (t : Time) : TouchesPhase s (tickFlasher s t) := by
  unfold tickFlasher
  simp only
  split
  · obtain ⟨t1, f, h, r⟩ := startPhase_touches
      { s with flasher := { s.flasher with counter := s.flasher.counter - 1, tick := some (t + Config.ms10) } } s.flasher.state.after
    rw [h]
    obtain ⟨t2, a, b, l, h', r', k⟩ := resolveAll_touches { s with tables := t1, flasher := f }
    exact ⟨t2, a, b, l, f, h', r.trans r', k⟩
  · exact ⟨s.tables, s.front.queue, s.rear.queue, s.lamps, _, rfl, .refl _, rfl⟩

end Sys2Proof.Machine
end

