-- ==== Sys2Proof/Laws/Resets.lean ====
section
/-! SUPPORT. The resets: what each stage of a reset can touch, and what a whole reset keeps. -/

namespace Sys2Proof.Machine

theorem startWatch_reads (now : Time) (p : TableStore × Vector SourceRecord 64) (a : Fin 64) : p.1.Reads (startWatch now p a).1 :=
  TableStore.directory_reads _ _

theorem setUpChannel_reads (p : TableStore × Vector Channel 32) (c : Fin 32) : p.1.Reads (setUpChannel p c).1 := TableStore.event_reads _ _

theorem startStale_reads (now : Time) (p : TableStore × Vector DescriptorRecord 16) (d : Fin 16) : p.1.Reads (startStale now p d).1 :=
  TableStore.descriptor_reads _ _

/-- The route engine's part of a reset touches the source records. -/
theorem resetRoutes_touches (s : State) :
    ∃ t v, resetRoutes s = { s with tables := t, routes := { s.routes with sources := v } } ∧ s.tables.Reads t :=
  ⟨_, _, rfl, foldl_rel (R := fun p q : TableStore × Vector SourceRecord 64 => p.1.Reads q.1) (fun _ => .refl _) (fun h k => h.trans k)
    (startWatch_reads s.now) (List.finRange 64) (s.tables, s.routes.sources)⟩

/-- The event block's part of a reset touches the channel records. -/
theorem resetEvents_touches (s : State) :
    ∃ t v, resetEvents s = { s with tables := t, events := { s.events with channels := v } } ∧ s.tables.Reads t :=
  ⟨_, _, rfl, foldl_rel (R := fun p q : TableStore × Vector Channel 32 => p.1.Reads q.1) (fun _ => .refl _) (fun h k => h.trans k)
    setUpChannel_reads (List.finRange 32) (s.tables, s.events.channels)⟩

/-- The sampler's part of a reset touches the descriptor records. -/
theorem resetSampler_touches (s : State) :
    ∃ t v, resetSampler s = { s with tables := t, sampler := { s.sampler with descriptors := v } } ∧ s.tables.Reads t :=
  ⟨_, _, rfl, foldl_rel (R := fun p q : TableStore × Vector DescriptorRecord 16 => p.1.Reads q.1) (fun _ => .refl _) (fun h k => h.trans k)
    (startStale_reads s.now) (List.finRange 16) (s.tables, s.sampler.descriptors)⟩

/-- The load block's part of a reset touches the load block and the two queues. -/
theorem resetLamps_touches (s : State) : TouchesLamps s (resetLamps s) :=
  (foldl_rel (R := TouchesLamps) TouchesLamps.refl (fun h k => h.trans k)
    (fun s P => (startRefresh_touches s P).1.trans (startReport_touches _ P).1) (List.finRange 12) s).trans (resolveAll_touches _)

/-- What a whole reset keeps: the queue of commands, the clock, the power, the straps, the NV image, the ignition pin and the store's words;
and that the counters are as the kind of reset leaves them. -/
theorem resetBlocks_keeps (keep : Bool) (s : State) :
    (resetBlocks keep s).pending = s.pending ∧ (resetBlocks keep s).now = s.now ∧ (resetBlocks keep s).draws = s.draws ∧
      (resetBlocks keep s).power = s.power ∧ (resetBlocks keep s).straps = s.straps ∧ (resetBlocks keep s).nv = s.nv ∧
      (resetBlocks keep s).service = .idle ∧ (resetBlocks keep s).events.rawIgnition = s.events.rawIgnition ∧
      ({ s.tables with parityCount := keepCount keep s.tables.parityCount } : TableStore).Reads (resetBlocks keep s).tables ∧
      (resetBlocks keep s).front.counters = keepPortCounts keep s.front.counters ∧
      (resetBlocks keep s).rear.counters = keepPortCounts keep s.rear.counters ∧
      (resetBlocks keep s).routes.routeMiss = keepCount keep s.routes.routeMiss ∧
      (resetBlocks keep s).routes.reportError = keepCount keep s.routes.reportError ∧
      (resetBlocks keep s).events.edgeLost = keepCount keep s.events.edgeLost ∧
      (resetBlocks keep s).engine.chainFault = keepCount keep s.engine.chainFault ∧
      (resetBlocks keep s).engine.slotFull = keepCount keep s.engine.slotFull := by
  unfold resetBlocks
  obtain ⟨t1, v1, e1, r1⟩ := resetRoutes_touches (clearBlocks keep s)
  obtain ⟨t2, v2, e2, r2⟩ := resetEvents_touches (resetRoutes (clearBlocks keep s))
  obtain ⟨t3, v3, e3, r3⟩ := resetSampler_touches (resetEvents (resetRoutes (clearBlocks keep s)))
  obtain ⟨t4, f, g, l, e4, r4, _⟩ := resetLamps_touches (resetSampler (resetEvents (resetRoutes (clearBlocks keep s))))
  rw [e4, e3, e2, e1]
  rw [e1] at r2
  rw [e2, e1] at r3
  rw [e3, e2, e1] at r4
  exact ⟨rfl, rfl, rfl, rfl, rfl, rfl, rfl, rfl, ((r1.trans r2).trans r3).trans r4, rfl, rfl, rfl, rfl, rfl, rfl, rfl⟩

end Sys2Proof.Machine
end

