-- ==== Sys2Proof/Laws/Line.lean ====
section
/-! SUPPORT. The freeing of a queue entry: the head that leaves, the refill made with it or owed, and the restart that waits for it. -/

namespace Sys2Proof.Machine

/-! ## setRefillOwed -/

@[simp] theorem State.setRefillOwed_pending (s : State) (p : PortId) (b : Bool) : (s.setRefillOwed p b).pending = s.pending := by cases p <;> rfl
@[simp] theorem State.setRefillOwed_now (s : State) (p : PortId) (b : Bool) : (s.setRefillOwed p b).now = s.now := by cases p <;> rfl
@[simp] theorem State.setRefillOwed_draws (s : State) (p : PortId) (b : Bool) : (s.setRefillOwed p b).draws = s.draws := by cases p <;> rfl
@[simp] theorem State.setRefillOwed_power (s : State) (p : PortId) (b : Bool) : (s.setRefillOwed p b).power = s.power := by cases p <;> rfl
@[simp] theorem State.setRefillOwed_straps (s : State) (p : PortId) (b : Bool) : (s.setRefillOwed p b).straps = s.straps := by cases p <;> rfl
@[simp] theorem State.setRefillOwed_tables (s : State) (p : PortId) (b : Bool) : (s.setRefillOwed p b).tables = s.tables := by cases p <;> rfl
@[simp] theorem State.setRefillOwed_nv (s : State) (p : PortId) (b : Bool) : (s.setRefillOwed p b).nv = s.nv := by cases p <;> rfl
@[simp] theorem State.setRefillOwed_routes (s : State) (p : PortId) (b : Bool) : (s.setRefillOwed p b).routes = s.routes := by cases p <;> rfl
@[simp] theorem State.setRefillOwed_events (s : State) (p : PortId) (b : Bool) : (s.setRefillOwed p b).events = s.events := by cases p <;> rfl
@[simp] theorem State.setRefillOwed_engine (s : State) (p : PortId) (b : Bool) : (s.setRefillOwed p b).engine = s.engine := by cases p <;> rfl
@[simp] theorem State.setRefillOwed_lamps (s : State) (p : PortId) (b : Bool) : (s.setRefillOwed p b).lamps = s.lamps := by cases p <;> rfl
@[simp] theorem State.setRefillOwed_flasher (s : State) (p : PortId) (b : Bool) : (s.setRefillOwed p b).flasher = s.flasher := by cases p <;> rfl
@[simp] theorem State.setRefillOwed_sampler (s : State) (p : PortId) (b : Bool) : (s.setRefillOwed p b).sampler = s.sampler := by cases p <;> rfl
@[simp] theorem State.setRefillOwed_gauges (s : State) (p : PortId) (b : Bool) : (s.setRefillOwed p b).gauges = s.gauges := by cases p <;> rfl
@[simp] theorem State.setRefillOwed_service (s : State) (p : PortId) (b : Bool) : (s.setRefillOwed p b).service = s.service := by cases p <;> rfl

@[simp] theorem State.port_setRefillOwed (s : State) (p : PortId) (b : Bool) :
    (s.setRefillOwed p b).port p = { s.port p with refillOwed := b } := by cases p <;> rfl
@[simp] theorem State.port_setRefillOwed_other (s : State) (p : PortId) (b : Bool) :
    (s.setRefillOwed p b).port p.other = s.port p.other := by cases p <;> rfl

/-! ## The freeing of an entry -/

/-- The refill of a freeing touches the pods' marks and the queues, once the port owes none. -/
theorem settleRefill_touches (s : State) (p : PortId) : TouchesPods (s.setRefillOwed p false) (settleRefill s p) := refill_touches _ p

/-- An owed refill is the refill. -/
theorem owedRefill_owed {s : State} {p : PortId} (h : (s.port p).refillOwed = true) :
    owedRefill s p = refill (s.setPort p { s.port p with refillOwed := false }) p := if_pos h

/-- Where none is owed nothing changes. -/
theorem owedRefill_none {s : State} {p : PortId} (h : (s.port p).refillOwed = false) : owedRefill s p = s := by simp [owedRefill, h]

/-- An entry that is no RESTART's reply leaves with nothing more. -/
theorem afterFreeing_plain {e : QueueEntry} (s : State) (h : e.restartReply = false) : afterFreeing e s = s := by simp [afterFreeing, h]

/-- A RESTART's reply leaves with the restart. -/
theorem afterFreeing_restart {e : QueueEntry} (s : State) (h : e.restartReply = true) : afterFreeing e s = resetBlocks true s := if_pos h

/-- The head of a transmitting port sent whole. -/
theorem sendHead_head {s : State} {p : PortId} {e : QueueEntry} {rest : List QueueEntry} (refilled : State → State)
    (h : (s.port p).line = .transmitting) (k : (s.port p).queue = e :: rest) :
    sendHead s p refilled =
      afterFreeing e
        (refilled
          (s.setPort p
            { s.port p with
              line := .idle, quietFrom := s.now, queue := rest, sentBytes := 0
              counters := { (s.port p).counters with txSent := (s.port p).counters.txSent.bump } })) := by
  simp only [sendHead, h, k]

/-- The head of a transmitting port abandoned. -/
theorem abandonHead_head {s : State} {p : PortId} {e : QueueEntry} {rest : List QueueEntry} (refilled : State → State)
    (h : (s.port p).line = .transmitting) (k : (s.port p).queue = e :: rest) :
    abandonHead s p refilled =
      afterFreeing e
        (refilled
          (markDirty
            (s.setPort p
              { s.port p with
                line := .skipping, quietFrom := s.now, queue := rest, sentBytes := 0
                counters := { (s.port p).counters with txCollide := (s.port p).counters.txCollide.bump } })
            e.pod)) := by
  simp only [abandonHead, h, k]

/-- A port that is not transmitting sends no head. -/
theorem sendHead_off {s : State} {p : PortId} (refilled : State → State) (h : (s.port p).line ≠ .transmitting) : sendHead s p refilled = s := by
  simp only [sendHead]
  split
  · exact absurd (by assumption) h
  · rfl

/-- A port that is not transmitting abandons no head. -/
theorem abandonHead_off {s : State} {p : PortId} (refilled : State → State) (h : (s.port p).line ≠ .transmitting) :
    abandonHead s p refilled = s := by
  simp only [abandonHead]
  split
  · exact absurd (by assumption) h
  · rfl

/-- The mark of an abandoned LAMPCMD touches the pod records. -/
theorem markDirty_touches (s : State) (pod : Option (Fin 12)) : TouchesPods s (markDirty s pod) := by
  cases pod with
  | none => exact .refl s
  | some P => exact updPod_pods s P _

end Sys2Proof.Machine
end

