-- ==== Sys2Proof/Laws/Ports.lean ====
section
/-! SUPPORT. The ports: what placing, handing over, releasing and offering do to a port, and that each keeps its queue and pools in order. -/

namespace Sys2Proof.Machine

/-! ## Pools -/

/-- A hand-over touches the pools alone. -/
theorem Port.handOver_eq (q : Port) : q.handOver = { q with poolA := q.handOver.poolA, poolB := q.handOver.poolB } := by
  unfold Port.handOver
  split <;> try rfl
  split <;> rfl

/-- A release touches the pools alone. -/
theorem Port.release_eq (q : Port) :
    q.release = { q with poolA := q.release.poolA, poolB := q.release.poolB, olderB := q.release.olderB } := by
  unfold Port.release
  split
  · rw [Port.handOver_eq]
  · rw [Port.handOver_eq]
  · rfl

/-- A placing touches the pools and the two counters of R22. -/
theorem Port.place_eq (q : Port) (h : HeldFrame) :
    q.place h =
      { q with
        poolA := (q.place h).poolA, poolB := (q.place h).poolB, olderB := (q.place h).olderB
        counters := { q.counters with rxGood := (q.place h).counters.rxGood, rxOverflow := (q.place h).counters.rxOverflow } } := by
  unfold Port.place
  split <;> rfl

/-- Pools in order stay so when a frame is placed and handed over. -/
theorem Port.place_poolsWf (q : Port) (h : HeldFrame) (w : q.PoolsWf) : (q.place h).handOver.PoolsWf := by
  obtain ⟨_, _, _, _, a, b, _, _, _, _⟩ := q
  cases a <;> cases b <;> first | exact w.elim | simp [Port.place, Port.handOver, Port.PoolsWf]

/-- Pools in order stay so when a pool is released. -/
theorem Port.release_poolsWf (q : Port) (w : q.PoolsWf) : q.release.PoolsWf := by
  obtain ⟨_, _, _, _, a, b, _, _, _, _⟩ := q
  cases a <;> cases b <;> first | exact w.elim | simp [Port.release, Port.handOver, Port.PoolsWf]

/-! ## The queue -/

/-- Appending a frame that is not started, with room and none waiting for the same pod, keeps a queue in order. -/
theorem QueueWf.append {q : List QueueEntry} (w : QueueWf q) (e : QueueEntry) (room : q.length < 8) (h : e.started = false)
    (none : ∀ P, e.pod = some P → q.any (·.waitsFor P) = false) : QueueWf (q ++ [e]) := by
  obtain ⟨_, t, c⟩ := w
  refine ⟨by simp; omega, ?_, ?_⟩
  · intro x hx
    cases q with
    | nil => simp at hx
    | cons y r =>
      have hx' : x ∈ r ++ [e] := hx
      rcases List.mem_append.mp hx' with h1 | h1
      · exact t x h1
      · rw [List.mem_singleton.mp h1, h]
  · intro P
    rw [List.countP_append]
    by_cases he : e.pod = some P
    · have hz : q.countP (·.waitsFor P) = 0 := by
        rw [List.countP_eq_zero]
        intro x hx hw
        have hn := none P he
        rw [List.any_eq_false] at hn
        exact hn x hx hw
      have : [e].countP (·.waitsFor P) ≤ 1 := List.countP_le_length
      omega
    · have hz : [e].countP (·.waitsFor P) = 0 := by
        rw [List.countP_eq_zero]
        intro x hx hw
        rw [List.mem_singleton.mp hx] at hw
        simp only [QueueEntry.waitsFor, Bool.and_eq_true, beq_iff_eq] at hw
        exact he hw.2
      have := c P
      omega

/-- A queue in order stays so when its head leaves. -/
theorem QueueWf.tail {e : QueueEntry} {q : List QueueEntry} (w : QueueWf (e :: q)) : QueueWf q := by
  obtain ⟨l, t, c⟩ := w
  refine ⟨by simp at l; omega, fun x hx => t x (List.mem_of_mem_tail hx), fun P => ?_⟩
  have := c P
  rw [List.countP_cons] at this
  omega

/-- A queue in order stays so when its head is started. -/
theorem QueueWf.startHead {q : List QueueEntry} (w : QueueWf q) : QueueWf (startHead q) := by
  cases q with
  | nil => exact w
  | cons e r =>
    obtain ⟨l, t, c⟩ := w
    refine ⟨l, t, fun P => ?_⟩
    have := c P
    simp only [Machine.startHead, List.countP_cons] at this ⊢
    have h : QueueEntry.waitsFor { e with started := true } P = false := rfl
    rw [h]
    simp only [Bool.false_eq_true, if_false]
    omega

/-- A replacement in place keeps the length. -/
@[simp] theorem replacePayload_length (P : Fin 12) (payload : List Byte) : ∀ q, (replacePayload P payload q).length = q.length
  | [] => rfl
  | e :: r => by
    unfold replacePayload
    split
    · rfl
    · simp [replacePayload_length P payload r]

/-- A replacement in place changes the payload of one entry and nothing else of any. -/
theorem replacePayload_get (P : Fin 12) (payload : List Byte) : ∀ (q : List QueueEntry) (k : Nat) (h : k < (replacePayload P payload q).length)
    (h' : k < q.length), ∃ x, (replacePayload P payload q)[k] = { q[k] with frame := { q[k].frame with payload := x } }
  | [], _, _, h' => absurd h' (Nat.not_lt_zero _)
  | e :: r, k, h, h' => by
    by_cases he : e.waitsFor P = true
    · cases k with
      | zero => exact ⟨payload, by simp [replacePayload, he]⟩
      | succ k => exact ⟨((e :: r)[k + 1]).frame.payload, by simp [replacePayload, he]⟩
    · cases k with
      | zero => exact ⟨e.frame.payload, by simp [replacePayload, he]⟩
      | succ k =>
        obtain ⟨x, hx⟩ := replacePayload_get P payload r k (by simpa [replacePayload, he] using h) (by simpa using h')
        exact ⟨x, by simpa [replacePayload, he] using hx⟩

/-- A replacement in place keeps the count of waiting frames of every pod. -/
theorem replacePayload_countP (P Q : Fin 12) (payload : List Byte) :
    ∀ q, (replacePayload P payload q).countP (·.waitsFor Q) = q.countP (·.waitsFor Q)
  | [] => rfl
  | e :: r => by
    unfold replacePayload
    split
    · simp only [List.countP_cons]
      rfl
    · simp only [List.countP_cons, replacePayload_countP P Q payload r]

/-- A replacement in place keeps the started marks behind the head clear. -/
theorem replacePayload_tail (P : Fin 12) (payload : List Byte) :
    ∀ q : List QueueEntry, (∀ e ∈ q, e.started = false) → ∀ e ∈ replacePayload P payload q, e.started = false
  | [], _, e, he => by simp [replacePayload] at he
  | x :: r, h, e, he => by
    unfold replacePayload at he
    split at he
    · rcases List.mem_cons.mp he with e1 | e1
      · rw [e1]; exact h x (List.mem_cons_self ..)
      · exact h e (List.mem_cons_of_mem _ e1)
    · rcases List.mem_cons.mp he with e1 | e1
      · rw [e1]; exact h x (List.mem_cons_self ..)
      · exact replacePayload_tail P payload r (fun y hy => h y (List.mem_cons_of_mem _ hy)) e e1

/-- A queue in order stays so under a replacement in place. -/
theorem QueueWf.replacePayload {q : List QueueEntry} (w : QueueWf q) (P : Fin 12) (payload : List Byte) : QueueWf (replacePayload P payload q) := by
  obtain ⟨l, t, c⟩ := w
  refine ⟨by simpa using l, ?_, fun Q => by rw [replacePayload_countP]; exact c Q⟩
  cases q with
  | nil => intro e he; simp [Machine.replacePayload] at he
  | cons x r =>
    intro e he
    unfold Machine.replacePayload at he
    split at he
    · exact t e he
    · exact replacePayload_tail P payload r t e he

/-- A queue in order stays so when a copy is offered. -/
theorem Port.offerCopy_queueWf (q : Port) (f : Frame) (w : QueueWf q.queue) : QueueWf (q.offerCopy f).queue := by
  unfold Port.offerCopy
  split
  · next h => exact w.append _ h rfl (fun P hp => by simp at hp)
  · exact w

/-- A queue in order stays so when a reply is offered. -/
theorem Port.offerReply_queueWf (q : Port) (f : Frame) (b : Bool) (w : QueueWf q.queue) : QueueWf (q.offerReply f b).queue := by
  unfold Port.offerReply
  split
  · next h => exact w.append _ h rfl (fun P hp => by simp at hp)
  · exact w

/-- A queue in order stays so when a LAMPCMD is offered by coalescing. -/
theorem Port.coalesce_queueWf {q r : Port} {P : Fin 12} {f : Frame} (w : QueueWf q.queue) (h : q.coalesce P f = some r) : QueueWf r.queue := by
  unfold Port.coalesce at h
  split at h
  · cases h; exact w.replacePayload P f.payload
  · next hn =>
    split at h
    · next hl =>
      cases h
      refine w.append _ hl rfl fun Q hq => ?_
      cases hq
      simpa using hn
    · cases h

/-! ## Requests -/

/-- A frame held by the service consumer is the request a service command finds. -/
theorem State.Serves.request {s : State} {p : PortId} {f : Frame} (h : s.Serves p .serviceRequest f) :
    (s.port p).request = some (f, decodeRequest f.payload) := by
  simp [Port.request, h.2]

/-- A request answered with one reply, its pool released: the port alone is touched. -/
theorem answer_releasePool (s : State) (p : PortId) (f : Frame) (status : Status) (data : List Byte) :
    (answer s p f status data).releasePool p = s.setPort p ((s.port p).replied (replyFrame s f.src (requestCode f) status data)) := by
  simp [answer, State.releasePool, Port.replied]

end Sys2Proof.Machine
end

