-- ==== Sys2Proof/Laws/Supply.lean ====
section
/-! SUPPORT. The feed: which states of it a power-on ends, what a loss leaves, and what each of its events does on its occasion and off it. -/

namespace Sys2Proof.Machine

/-- A power-on ends the loss of the store and the loading cut short, and nothing else does (R173). -/
theorem Power.endsInPowerOn_iff (w : Power) : w.endsInPowerOn = true ↔ w = .lost ∨ w = .unloaded := by cases w <;> decide

/-- A lost store is in canonical form. -/
theorem lostTables_wf (t : TableStore) (draw : Nat) : (lostTables t draw).Wf := by
  have h := Memory.ofFn_wf unlistedWord tableWords fun a =>
    (⟨(Config.lostWord draw a).1, (Config.lostWord draw a).2.1, (Config.lostWord draw a).2.2⟩ : StoredWord)
  simpa only [TableStore.Wf, lostTables] using h

/-- A lost store keeps the PARITY counter (log 10). -/
@[simp] theorem lostTables_parityCount (t : TableStore) (draw : Nat) : (lostTables t draw).parityCount = t.parityCount := by
  simp only [lostTables]

/-- A power-on whose loading completes. -/
theorem execPowerOn_loaded (dt : Time) {rise : FeedRise} {s : State} (h : s.power.endsInPowerOn = true) (l : rise.loaded = true) :
    execPowerOn dt rise s = .next (resetBlocks false (loadTables { s.elapse dt with power := .running, straps := rise.pins })) := by
  simp only [execPowerOn, State.elapse, h, l, if_true]

/-- A power-on whose loading the feed cuts short. -/
theorem execPowerOn_cut (dt : Time) {rise : FeedRise} {s : State} (h : s.power.endsInPowerOn = true) (l : rise.loaded = false) :
    execPowerOn dt rise s = .next (cutLoading { s.elapse dt with straps := rise.pins }) := by
  simp only [execPowerOn, State.elapse, h, l, if_true, Bool.false_eq_true, if_false]

/-- In a state of the feed that no power-on ends, the clock moves alone. -/
theorem execPowerOn_off (dt : Time) (rise : FeedRise) {s : State} (h : s.power.endsInPowerOn = false) :
    execPowerOn dt rise s = .next (s.elapse dt) := by
  simp only [execPowerOn, State.elapse, h, Bool.false_eq_true, if_false]

/-- A brown-out ends a hold. -/
theorem execBrownOut_held (dt : Time) {s : State} (h : s.power = .held) :
    execBrownOut dt s = .next (resetBlocks false { s.elapse dt with power := .running }) := by
  simp only [execBrownOut, State.elapse, h, if_true]

/-- Out of a hold the clock moves alone. -/
theorem execBrownOut_off (dt : Time) {s : State} (h : s.power ≠ .held) : execBrownOut dt s = .next (s.elapse dt) := by
  simp only [execBrownOut, State.elapse, h, if_false]

end Sys2Proof.Machine
end

