-- ==== Sys2Proof/Laws/Walks.lean ====
section
/-! SUPPORT. What the walks of the two engines can touch: the action walk with its group of changes, and the route walk. -/

namespace Sys2Proof.Machine

/-! ## The action walk -/

/-- Between two event blocks only masks and in-service marks differ, and the call for a choice. -/
abbrev EventBlock.Walked (b c : EventBlock) : Prop :=
  (∀ k : Fin 32, (c.channels[k]).level = (b.channels[k]).level ∧ (c.channels[k]).pending = (b.channels[k]).pending) ∧
    c.rawIgnition = b.rawIgnition ∧ c.debounced = b.debounced ∧ c.debounceTimer = b.debounceTimer ∧ c.edgeLost = b.edgeLost

/-- Between two sets of load records only requested levels and ramp flags differ. -/
abbrev Requested (v w : Vector LoadRecord 32) : Prop :=
  ∀ l : Fin 32, w[l] = { v[l] with requested := (w[l]).requested, ramp := (w[l]).ramp }

/-- An action walk touches the engine, masks and in-service marks, and requests; the table store is read. -/
abbrev TouchesWalk (s u : State) : Prop :=
  ∃ t e n l, u = { s with tables := t, events := e, engine := n, lamps := { s.lamps with loads := l } } ∧ s.tables.Reads t ∧
    s.events.Walked e ∧ Requested s.lamps.loads l

theorem TouchesWalk.refl (s : State) : TouchesWalk s s :=
  ⟨s.tables, s.events, s.engine, s.lamps.loads, rfl, .refl _, ⟨fun _ => ⟨rfl, rfl⟩, rfl, rfl, rfl, rfl⟩, fun _ => rfl⟩

theorem TouchesWalk.trans {s u v : State} (h : TouchesWalk s u) (k : TouchesWalk u v) : TouchesWalk s v := by
  obtain ⟨t, e, n, l, rfl, h1, ⟨h2, h3, h4, h5, h6⟩, h7⟩ := h
  obtain ⟨t', e', n', l', rfl, k1, ⟨k2, k3, k4, k5, k6⟩, k7⟩ := k
  refine ⟨t', e', n', l', rfl, h1.trans k1,
    ⟨fun c => ⟨(k2 c).1.trans (h2 c).1, (k2 c).2.trans (h2 c).2⟩, k3.trans h3, k4.trans h4, k5.trans h5, k6.trans h6⟩, fun i => ?_⟩
  have a := h7 i
  have b := k7 i
  simp only at a b ⊢
  rw [b, a]

theorem withTables_walk (s : State) (t : TableStore) (h : s.tables.Reads t) : TouchesWalk s (s.withTables t) :=
  ⟨t, s.events, s.engine, s.lamps.loads, rfl, h, ⟨fun _ => ⟨rfl, rfl⟩, rfl, rfl, rfl, rfl⟩, fun _ => rfl⟩

theorem engine_walk (s : State) (n : ActionEngine) : TouchesWalk s { s with engine := n } :=
  ⟨s.tables, s.events, n, s.lamps.loads, rfl, .refl _, ⟨fun _ => ⟨rfl, rfl⟩, rfl, rfl, rfl, rfl⟩, fun _ => rfl⟩

theorem updChannel_walk (s : State) (c : Fin 32) (f : Channel → Channel)
    (h : ∀ x, (f x).level = x.level ∧ (f x).pending = x.pending) : TouchesWalk s (s.updChannel c f) := by
  refine ⟨s.tables, _, s.engine, s.lamps.loads, rfl, .refl _, ⟨fun k => ?_, rfl, rfl, rfl, rfl⟩, fun _ => rfl⟩
  simp only [upd_get]
  split
  · exact h _
  · exact ⟨rfl, rfl⟩

theorem setInService_walk (s : State) (c : Fin 32) (b : Bool) : TouchesWalk s (s.setInService c b) :=
  updChannel_walk s c _ fun _ => ⟨rfl, rfl⟩

theorem endChain_walk (ch : Chain) (s : State) : TouchesWalk s (endChain ch s) := by
  unfold endChain
  split
  · exact (engine_walk s _).trans (setInService_walk _ _ _)
  · exact .refl s

theorem faultChain_walk (ch : Chain) (s : State) : TouchesWalk s (faultChain ch s) := (engine_walk s _).trans (endChain_walk _ _)

theorem suspendChain_walk (ch : Chain) (k : Fin 4) (next : Option (Fin 256)) (wait : Nat) (s : State) :
    TouchesWalk s (suspendChain ch k next wait s) := (engine_walk s _).trans (setInService_walk _ _ _)

theorem perform_walk (op : ActionOp) (s : State) : TouchesWalk s (perform op s) := by
  cases op with
  | setMode m c => exact engine_walk s _
  | setLoad l level ramp =>
    refine ⟨s.tables, s.events, s.engine, _, rfl, .refl _, ⟨fun _ => ⟨rfl, rfl⟩, rfl, rfl, rfl, rfl⟩, fun k => ?_⟩
    simp only [upd_get]
    split <;> rfl
  | indicate r => exact engine_walk s _
  | mask c m => exact updChannel_walk s c _ fun _ => ⟨rfl, rfl⟩
  | fan c level => exact engine_walk s _
  | wait t => exact .refl s
  | testMode m b o => exact .refl s
  | testLevel c b o => exact .refl s
  | unnamed => exact .refl s

/-- A walk touches no more, whatever its chain. -/
theorem walk_walk (ch : Chain) : ∀ (n : Nat) (i : Fin 256) (s : State), TouchesWalk s (walk ch n i s) := by
  intro n
  induction n with
  | zero => intro i s; exact faultChain_walk ch s
  | succ n ih =>
    intro i s
    have w := withTables_walk s _ (s.tables.action_reads i)
    simp only [walk]
    split
    · exact w.trans (endChain_walk _ _)
    · split
      · split
        · split
          · exact w.trans (suspendChain_walk _ _ _ _ _)
          · exact w.trans (suspendChain_walk _ _ _ _ _)
          · exact w.trans (faultChain_walk _ _)
        · split
          · exact (w.trans (engine_walk _ _)).trans (endChain_walk _ _)
          · exact (w.trans (engine_walk _ _)).trans (ih _ _)
          · exact (w.trans (engine_walk _ _)).trans (faultChain_walk _ _)
      · split
        · exact (w.trans (perform_walk _ _)).trans (endChain_walk _ _)
        · exact (w.trans (perform_walk _ _)).trans (ih _ _)
        · exact (w.trans (perform_walk _ _)).trans (faultChain_walk _ _)

/-- The group of changes touches the flasher, the load block, the queues and, when IGNITION clears, the gauge drive (R143). -/
theorem commitGroup_touches (b s : State) :
    ∃ t a r l f, commitGroup b s =
        { s with
          tables := t, front := { s.front with queue := a }, rear := { s.rear with queue := r }, lamps := l, flasher := f
          gauges := if b.ignition && !s.ignition then s.gauges.zeroed else s.gauges } ∧
      s.tables.Reads t ∧ l.fadeTimer = s.lamps.fadeTimer := by
  unfold commitGroup
  simp only
  have z : (if b.ignition && !s.ignition then { s with gauges := s.gauges.zeroed } else s) =
      { s with gauges := if b.ignition && !s.ignition then s.gauges.zeroed else s.gauges } := by
    split <;> rfl
  rw [z]
  generalize (if b.ignition && !s.ignition then s.gauges.zeroed else s.gauges) = g
  obtain ⟨t, f, h, r⟩ := settleFlasher_touches { s with gauges := g }
  rw [h]
  split
  · obtain ⟨t', a, r', l, h', r2, k⟩ := resolveAll_touches { s with tables := t, flasher := f, gauges := g }
    exact ⟨t', a, r', l, f, h', r.trans r2, k⟩
  · exact ⟨t, s.front.queue, s.rear.queue, s.lamps, f, rfl, r, rfl⟩

/-- A whole walk of the action engine touches the engine, the channels' masks and in-service marks, the load block, the queues, the
flasher and the gauge drive; the table store is read. -/
abbrev TouchesEngine (s u : State) : Prop :=
  ∃ t a b e n l f g, u =
      { s with
        tables := t, front := { s.front with queue := a }, rear := { s.rear with queue := b }, events := e, engine := n, lamps := l
        flasher := f, gauges := g } ∧
    s.tables.Reads t ∧ l.fadeTimer = s.lamps.fadeTimer ∧ e.rawIgnition = s.events.rawIgnition ∧ e.debounced = s.events.debounced ∧
      e.debounceTimer = s.events.debounceTimer ∧ e.edgeLost = s.events.edgeLost ∧
        ∀ k : Fin 32, (e.channels[k]).level = (s.events.channels[k]).level

theorem TouchesEngine.refl (s : State) : TouchesEngine s s :=
  ⟨s.tables, s.front.queue, s.rear.queue, s.events, s.engine, s.lamps, s.flasher, s.gauges, rfl, .refl _, rfl, rfl, rfl, rfl, rfl, fun _ => rfl⟩

theorem TouchesEngine.trans {s u v : State} (h : TouchesEngine s u) (k : TouchesEngine u v) : TouchesEngine s v := by
  obtain ⟨t, a, b, e, n, l, f, g, rfl, h1, h2, h3, h4, h5, h6, h7⟩ := h
  obtain ⟨t', a', b', e', n', l', f', g', rfl, k1, k2, k3, k4, k5, k6, k7⟩ := k
  exact ⟨t', a', b', e', n', l', f', g', rfl, h1.trans k1, k2.trans h2, k3.trans h3, k4.trans h4, k5.trans h5, k6.trans h6,
    fun c => (k7 c).trans (h7 c)⟩

theorem TouchesWalk.engine {s u : State} (h : TouchesWalk s u) : TouchesEngine s u := by
  obtain ⟨t, e, n, l, rfl, h1, ⟨h2, h3, h4, h5, h6⟩, h7⟩ := h
  exact ⟨t, s.front.queue, s.rear.queue, e, n, _, s.flasher, s.gauges, rfl, h1, rfl, h3, h4, h5, h6, fun k => (h2 k).1⟩

theorem updChannel_engine (s : State) (c : Fin 32) (f : Channel → Channel) (h : ∀ x, (f x).level = x.level) :
    TouchesEngine s (s.updChannel c f) := by
  refine ⟨s.tables, s.front.queue, s.rear.queue, _, s.engine, s.lamps, s.flasher, s.gauges, rfl, .refl _, rfl, rfl, rfl, rfl, rfl, fun k => ?_⟩
  simp only [upd_get]
  split
  · exact h _
  · rfl

theorem callChoice_engine (s : State) : TouchesEngine s s.callChoice :=
  ⟨s.tables, s.front.queue, s.rear.queue, _, s.engine, s.lamps, s.flasher, s.gauges, rfl, .refl _, rfl, rfl, rfl, rfl, rfl, fun _ => rfl⟩

theorem runWalk_engine (ch : Chain) (i : Fin 256) (s : State) : TouchesEngine s (runWalk ch i s) := by
  unfold runWalk
  have w := (walk_walk ch 32 i s).engine
  generalize walk ch 32 i s = u at w ⊢
  obtain ⟨t, a, b, l, f, h, r, k⟩ := commitGroup_touches s u
  refine (w.trans ?_).trans (callChoice_engine _)
  rw [h]
  exact ⟨t, a, b, u.events, u.engine, l, f, _, rfl, r, k, rfl, rfl, rfl, rfl, fun _ => rfl⟩

theorem cancelChain_walk (s : State) (c : Fin 32) : TouchesWalk s (cancelChain s c) := by
  unfold cancelChain
  refine (foldl_rel TouchesWalk.refl TouchesWalk.trans (fun a k => ?_) _ _).trans (setInService_walk _ _ _)
  split
  · exact engine_walk a _
  · exact .refl a

theorem takeChannel_engine (s : State) (c : Fin 32) (e : EventEntry) (edge : Edge) : TouchesEngine s (takeChannel s c e edge) := by
  unfold takeChannel
  simp only
  have a := updChannel_engine s c (fun x => { x with pending := none }) fun _ => rfl
  have b : TouchesEngine s
      (if (s.events.channels[c]).inService = true then cancelChain (s.updChannel c fun x => { x with pending := none }) c
        else s.updChannel c fun x => { x with pending := none }) := by
    split
    · exact a.trans (cancelChain_walk _ _).engine
    · exact a
  split
  · exact b.trans (runWalk_engine _ _ _)
  · exact b.trans (callChoice_engine _)

theorem chooseFrom_engine : ∀ (l : List (Fin 32)) (s : State), TouchesEngine s (chooseFrom l s) := by
  intro l
  induction l with
  | nil =>
    intro s
    exact ⟨s.tables, s.front.queue, s.rear.queue, _, s.engine, s.lamps, s.flasher, s.gauges, rfl, .refl _, rfl, rfl, rfl, rfl, rfl, fun _ => rfl⟩
  | cons c l ih =>
    intro s
    have w := (withTables_walk s _ (s.tables.event_reads c)).engine
    simp only [chooseFrom]
    split
    · exact ih s
    · split
      · exact ih s
      · split
        · exact (w.trans (updChannel_engine _ c (fun x => { x with pending := none }) fun _ => rfl)).trans (ih _)
        · split
          · exact w.trans (takeChannel_engine _ _ _ _)
          · exact w.trans (ih _)

theorem resumeSlot_engine (s : State) (k : Fin 4) : TouchesEngine s (resumeSlot s k) := by
  unfold resumeSlot
  simp only
  split
  · exact (endChain_walk _ _).engine.trans (callChoice_engine _)
  · exact runWalk_engine _ _ _

/-! ## The waits -/

/-- A slot whose wait is over becomes DUE with its timer stopped (R89). -/
theorem Slot.expire_over {k : Slot} {now : Time} (h : k.waitOver now = true) : k.expire now = { k with state := .due, timer := none } := if_pos h

/-- Any other slot stands. -/
theorem Slot.expire_not {k : Slot} {now : Time} (h : k.waitOver now = false) : k.expire now = k := by simp [Slot.expire, h]

/-- A slot keeps its channel and its next entry. -/
theorem Slot.expire_keeps (k : Slot) (now : Time) : (k.expire now).channel = k.channel ∧ (k.expire now).next = k.next := by
  unfold Slot.expire
  split <;> exact ⟨rfl, rfl⟩

/-- A slot is FREE after as before. -/
theorem Slot.expire_free (k : Slot) (now : Time) : (k.expire now).state = .free ↔ k.state = .free := by
  unfold Slot.expire Slot.waitOver
  split
  · rename_i h
    cases e : k.state <;> simp_all
  · exact Iff.rfl

/-! ## The route walk -/

/-- A route walk, before it releases its pool, touches no pool and no line: of a port only the queue and TX-DROP. -/
abbrev TouchesRoute (s u : State) : Prop :=
  ∃ t a x b y r e l d g, u =
      { s with
        tables := t, front := { s.front with queue := a, counters := { s.front.counters with txDrop := x } }
        rear := { s.rear with queue := b, counters := { s.rear.counters with txDrop := y } }, routes := r, events := e, lamps := l
        sampler := { s.sampler with descriptors := d }, gauges := g } ∧
    s.tables.Reads t ∧ l.fadeTimer = s.lamps.fadeTimer ∧ s.events.Reported e ∧ s.gauges.Retargeted g

theorem TouchesRoute.refl (s : State) : TouchesRoute s s :=
  ⟨s.tables, s.front.queue, s.front.counters.txDrop, s.rear.queue, s.rear.counters.txDrop, s.routes, s.events, s.lamps, s.sampler.descriptors,
    s.gauges, rfl, .refl _, rfl, ⟨fun _ => ⟨rfl, rfl⟩, rfl, rfl, rfl⟩, .refl _⟩

theorem TouchesRoute.trans {s u v : State} (h : TouchesRoute s u) (k : TouchesRoute u v) : TouchesRoute s v := by
  obtain ⟨t, a, x, b, y, r, e, l, d, g, rfl, h1, h2, ⟨h3, h4, h5, h6⟩, h7⟩ := h
  obtain ⟨t', a', x', b', y', r', e', l', d', g', rfl, k1, k2, ⟨k3, k4, k5, k6⟩, k7⟩ := k
  exact ⟨t', a', x', b', y', r', e', l', d', g', rfl, h1.trans k1, k2.trans h2,
    ⟨fun c => ⟨(k3 c).1.trans (h3 c).1, (k3 c).2.trans (h3 c).2⟩, k4.trans h4, k5.trans h5, k6.trans h6⟩, h7.trans k7⟩

theorem withTables_route (s : State) (t : TableStore) (h : s.tables.Reads t) : TouchesRoute s (s.withTables t) :=
  ⟨t, s.front.queue, s.front.counters.txDrop, s.rear.queue, s.rear.counters.txDrop, s.routes, s.events, s.lamps, s.sampler.descriptors,
    s.gauges, rfl, h, rfl, ⟨fun _ => ⟨rfl, rfl⟩, rfl, rfl, rfl⟩, .refl _⟩

theorem routes_route (s : State) (r : RouteEngine) : TouchesRoute s { s with routes := r } :=
  ⟨s.tables, s.front.queue, s.front.counters.txDrop, s.rear.queue, s.rear.counters.txDrop, r, s.events, s.lamps, s.sampler.descriptors,
    s.gauges, rfl, .refl _, rfl, ⟨fun _ => ⟨rfl, rfl⟩, rfl, rfl, rfl⟩, .refl _⟩

theorem TouchesEvents.route {s u : State} (h : TouchesEvents s u) : TouchesRoute s u := by
  obtain ⟨t, e, rfl, h1, h2⟩ := h
  exact ⟨t, s.front.queue, s.front.counters.txDrop, s.rear.queue, s.rear.counters.txDrop, s.routes, e, s.lamps, s.sampler.descriptors,
    s.gauges, rfl, h1, rfl, h2, .refl _⟩

theorem TouchesSamples.route {s u : State} (h : TouchesSamples s u) : TouchesRoute s u := by
  obtain ⟨t, e, d, g, rfl, h1, h2, h3⟩ := h
  exact ⟨t, s.front.queue, s.front.counters.txDrop, s.rear.queue, s.rear.counters.txDrop, s.routes, e, s.lamps, d, g, rfl, h1, rfl, h2, h3⟩

theorem TouchesLamps.route {s u : State} (h : TouchesLamps s u) : TouchesRoute s u := by
  obtain ⟨t, a, b, l, rfl, h1, h2⟩ := h
  exact ⟨t, a, s.front.counters.txDrop, b, s.rear.counters.txDrop, s.routes, s.events, l, s.sampler.descriptors, s.gauges, rfl, h1, h2,
    ⟨fun _ => ⟨rfl, rfl⟩, rfl, rfl, rfl⟩, .refl _⟩

theorem offerCopy_route (s : State) (p : PortId) (f : Frame) : TouchesRoute s (s.setPort p ((s.port p).offerCopy f)) := by
  have k : ∀ q : Port, ∃ a x, q.offerCopy f = { q with queue := a, counters := { q.counters with txDrop := x } } := by
    intro q
    unfold Port.offerCopy
    split
    · exact ⟨_, q.counters.txDrop, rfl⟩
    · exact ⟨q.queue, _, rfl⟩
  obtain ⟨a, x, h⟩ := k (s.port p)
  rw [h]
  cases p with
  | front =>
    exact ⟨s.tables, a, x, s.rear.queue, s.rear.counters.txDrop, s.routes, s.events, s.lamps, s.sampler.descriptors, s.gauges, rfl, .refl _, rfl,
      ⟨fun _ => ⟨rfl, rfl⟩, rfl, rfl, rfl⟩, .refl _⟩
  | rear =>
    exact ⟨s.tables, s.front.queue, s.front.counters.txDrop, a, x, s.routes, s.events, s.lamps, s.sampler.descriptors, s.gauges, rfl, .refl _, rfl,
      ⟨fun _ => ⟨rfl, rfl⟩, rfl, rfl, rfl⟩, .refl _⟩

theorem findRoute_reads (kind : Fin 16) : ∀ (n : Nat) (i : Int) (t : TableStore), t.Reads (findRoute kind n i t).1 := by
  intro n
  induction n with
  | zero => intro i t; exact .refl t
  | succ n ih =>
    intro i t
    simp only [findRoute]
    split
    · have r := t.route_reads (Fin.ofNat 128 i.toNat)
      split
      · exact r
      · split
        · exact r
        · split
          · exact r
          · exact r.trans (ih _ _)
    · exact .refl t

theorem matchPod_reads (src : LoomAddr) : ∀ (l : List (Fin 12)) (t : TableStore), t.Reads (matchPod src l t).1 := by
  intro l
  induction l with
  | nil => intro t; exact .refl t
  | cons P l ih =>
    intro t
    have r := t.pod_reads P
    simp only [matchPod]
    split
    · exact r.trans (ih _)
    · split
      · exact r
      · exact r.trans (ih _)

theorem hear_route (s : State) (src : Fin 64) (e : DirectoryEntry) : TouchesRoute s (hear s src e) := by
  unfold hear
  simp only
  have u : TouchesRoute s (s.updSource src fun _ => ⟨.heard, watchDeadline s.now e.watch⟩) := routes_route s _
  split
  · exact u.trans (reportTo_touches _ _ _).route
  · exact u

theorem routeReport_route (s : State) (f : Frame) : TouchesRoute s (routeReport s f) := by
  have w := withTables_route s _ (matchPod_reads f.src (List.finRange 12) s.tables)
  unfold routeReport
  simp only
  split
  · split
    · exact w.trans (takeReport_touches _ _ _).route
    · exact w.trans (routes_route _ _)
  · exact w.trans (routes_route _ _)

theorem performRoute_route (s : State) (p : PortId) (e : RouteEntry) (f : Frame) : TouchesRoute s (performRoute s p e f) := by
  have k : ∀ u, TouchesRoute s u → TouchesRoute s (if e.alsoForward then forward u p e f else u) := by
    intro u h
    split
    · exact h.trans (offerCopy_route _ _ _)
    · exact h
  unfold performRoute
  simp only
  split
  · exact k _ (routeSwitch_touches _ _ _).route
  · exact k _ (routeSender_touches _ _ _).route
  · exact k _ (routeReport_route _ _)
  · exact offerCopy_route _ _ _
  · exact .refl s

theorem walkRoute_route (s : State) (p : PortId) (e : DirectoryEntry) (f : Frame) : TouchesRoute s (walkRoute s p e f) := by
  unfold walkRoute
  split
  · exact routes_route s _
  · rename_i i _
    have w := withTables_route s _ (findRoute_reads f.kind 8 i.val s.tables)
    simp only
    split
    · exact w.trans (performRoute_route _ _ _ _)
    · exact w.trans (routes_route _ _)
    · exact w

theorem routeFrame_route (s : State) (p : PortId) (f : Frame) : TouchesRoute s (routeFrame s p f) := by
  have w := withTables_route s _ (s.tables.directory_reads f.src)
  unfold routeFrame
  simp only
  split
  · exact w
  · split
    · exact (w.trans (hear_route _ _ _)).trans (walkRoute_route _ _ _ _)
    · exact w.trans (routes_route _ _)

/-- A watch expiry touches its source's record and, by its report, the event block. -/
theorem expireWatch_touches (s : State) (src : Fin 64) :
    ∃ t e r, expireWatch s src = { s with tables := t, events := e, routes := r } ∧ s.tables.Reads t ∧ s.events.Reported e ∧
      r.routeMiss = s.routes.routeMiss ∧ r.reportError = s.routes.reportError := by
  have r := s.tables.directory_reads src
  unfold expireWatch
  simp only
  split
  · exact ⟨_, s.events, _, rfl, r, ⟨fun _ => ⟨rfl, rfl⟩, rfl, rfl, rfl⟩, rfl, rfl⟩
  · split
    · exact ⟨_, s.events, _, rfl, r, ⟨fun _ => ⟨rfl, rfl⟩, rfl, rfl, rfl⟩, rfl, rfl⟩
    · obtain ⟨t, e, h, h1, h2⟩ := reportTo_touches
        (((s.withTables (s.tables.directory src).1).updSource src fun x => { x with watch := none }).updSource src
          fun x => { x with heard := .silent }) (by assumption : DirectoryEntry).silence true
      exact ⟨t, e, _, h, r.trans h1, h2, rfl, rfl⟩

/-- A watch that expires with its slot read good and its period not 0: the source is SILENT with its timer stopped, and the silence is reported. -/
theorem expireWatch_silent {s : State} {src : Fin 64} {e : DirectoryEntry} (h : (s.tables.directory src).2 = some e) (w : e.watch ≠ 0) :
    expireWatch s src =
      reportTo ((s.updSource src fun x => { x with watch := none }).updSource src fun x => { x with heard := .silent }) e.silence true := by
  simp only [expireWatch, h, w, if_false, TableStore.directory_some h]
  rfl

/-- A debounce expiry touches the event block alone, and its one table read. -/
theorem expireDebounce_touches (s : State) : ∃ t e, expireDebounce s = { s with tables := t, events := e } ∧ s.tables.Reads t := by
  unfold expireDebounce
  simp only
  split
  · exact ⟨s.tables, _, rfl, .refl _⟩
  · obtain ⟨t, e, h, h1, _⟩ := reportLevel_touches
      { s with events := { { s.events with debounceTimer := none } with debounced := some s.events.rawIgnition } } 31 s.events.rawIgnition
    exact ⟨t, e, h, h1⟩

end Sys2Proof.Machine
end

