-- ==== Sys2Proof/Tests/Slice0.lean ====
section
/-! SUPPORT. The model's own tests: ill-formed commands, the values the manual works out, one small step for most commands, and for every
statement with hypotheses a state and operands that meet them all. -/

set_option Elab.async false

namespace Sys2Proof.Machine.Tests

/-! ## Small states -/

/-- Whether a result is a next state that a check accepts. -/
def leadsTo (r : Result) (f : State → Bool) : Bool :=
  match r with
  | .next t => f t
  | .fault _ => false
  | .refused _ => false

/-- The step of a second command, taken from the state the first one leads to. -/
def andThen (r : Result) (c : Instr) : Result :=
  match r with
  | .next t => exec c t
  | .fault f => .fault f
  | .refused f => .refused f

/-- The reset state with one frame in the hands of FRONT's consumer. -/
def serving (c : FrameClass) (f : Frame) : State := { State.reset with front := { State.reset.front with poolA := .serving ⟨f, c⟩ } }

/-- The reset state with a service request from address 60 to be taken. -/
def asking (payload : List Byte) : State := serving .serviceRequest ⟨1, 60, 4, payload⟩

/-- A state with words of the store rewritten. -/
def State.withWords (s : State) (a : Nat) (ws : List Word16) : State := { s with tables := s.tables.writeWords a ws }

/-- A state with one word of the store disturbed to 0. -/
def State.failingAt (s : State) (a : Nat) : State := { s with tables := s.tables.setWord a ((s.tables.word a).disturb 0#16) }

/-- A state with IGNITION set. -/
def State.driving (s : State) : State := { s with engine := { s.engine with modes := s.engine.modes.set 0 true } }

/-- The reset state with FRONT's record rewritten. -/
def front (f : Port → Port) : State := { State.reset with front := f State.reset.front }

/-- A queue of `n` frames, none started. -/
def queueOf (n : Nat) : List QueueEntry := List.replicate n ⟨⟨9, 1, 0, []⟩, false, none, false⟩

/-- A state that has begun to send the first of its queue's entries. -/
def sending (e : QueueEntry) (rest : List QueueEntry) : State :=
  front fun q => { q with line := .transmitting, queue := { e with started := true } :: rest }

/-- A LAMPCMD for pod 0, not started. -/
def lampEntry : QueueEntry := ⟨⟨16, 1, 2, [0#8, 0#8, 0#8, 0#8]⟩, false, some 0, false⟩

/-- FRONT with a run of bytes received. -/
def received (bytes : List Byte) : State :=
  front fun q => { q with line := .receiving, reception := ⟨bytes.take 22, bytes.length, false⟩ }

/-- The SWITCH frame of section 2.2, with its check. -/
def switchBytes : List Byte := [0x01#8, 0x08#8, 0x00#8, 0x01#8, 0x05#8, 0xF9#8, 0xF6#8]

/-! ## Ill-formed commands -/

theorem test_disturbance_outside_its_area_is_ill_formed :
    (Instr.bitsDisturbedInStorage 0 .gauge 32 0#16).wellFormed = false ∧ (Instr.bitsDisturbedInStorage 0 .gauge 31 0#16).wellFormed = true := by
  decide

theorem test_no_word_spells_a_command : decodeTableWord 8 0 = none ∧ State.reset.withFetchWord 8 0 = State.reset := by
  exact ⟨rfl, rfl⟩

/-! ## Values the manual works out -/

theorem test_checks_of_section_2_2 :
    checkOf [0x01#8, 0x08#8, 0x00#8, 0x01#8, 0x05#8] = 0xF9F6#16 ∧
      checkOf [0x10#8, 0x01#8, 0x02#8, 0x04#8, 0xFF#8, 0xFF#8, 0x00#8, 0x00#8] = 0xEDFA#16 := by
  decide

theorem test_empty_and_zero_nv_images_are_bad :
    onesSum (List.replicate 4 0xFFFF) = 0xFFFF ∧ onesSum (List.replicate 4 0) = 0 ∧ onesSum [0xFFFF, 0x0002] = 2 := by decide

theorem test_curves_of_section_9_3_1 :
    [80, 300, 479, 480, 700, 950].map (Curve.eval ⟨[(120, 0), (480, 500), (900, 1000)]⟩) = [0, 250, 498, 500, 761, 1000] ∧
      [250, 380, 400, 600, 799, 800].map (Curve.eval ⟨[(100, 0), (400, 300), (350, 600), (800, 1000)]⟩) = [150, 280, 300, 300, 300, 1000] := by
  decide +kernel

theorem test_duties_of_section_9_4_1 :
    gaugeDuty .thermal 500 1250 1000 = (328, false) ∧ gaugeDuty .thermal 1000 1380 1000 = (538, false) ∧
      gaugeDuty .thermal 1000 900 1000 = (1024, true) ∧ gaugeDuty .thermal 250 1380 1000 = (134, false) ∧
      gaugeDuty .thermal 761 900 1000 = (962, false) ∧ gaugeDuty .coil 500 1380 1000 = (371, false) := by
  decide +kernel

theorem test_fan_duties_of_section_9_9_3 :
    fanDuty 800 1350 1200 = (728, false) ∧ fanDuty 750 1160 1200 = (794, false) ∧ fanDuty 900 1250 1200 = (885, false) := by
  decide +kernel

theorem test_filament_counts_of_section_6_7_1 :
    [255, 170, 125, 124, 83, 42, 41, 0].map (fun m => proofOf 2 (litFilaments m 83)) =
      [.proven, .proven, .proven, .degraded, .degraded, .degraded, .isOpen, .isOpen] := by
  decide +kernel

theorem test_fuel_warning_of_section_8_9_1 :
    let e : DescriptorEntry := ⟨4, 120, 15, .below, some 20, 6⟩
    averageOf 520 4 = 130 ∧ thresholdAfter e .unknown 130 = .inactive ∧ thresholdAfter e .inactive 118 = .active ∧
      thresholdAfter e .active 128 = .active ∧ thresholdAfter e .active 136 = .inactive := by
  decide +kernel

theorem test_tach_values_of_section_9_9_2 : tachOf 37 6 = 185 ∧ tachOf 38 6 = 190 ∧ tachOf 1023 4 = 1023 := by decide

/-- The limp tables read back as the entries R175 to R180 list. -/
theorem test_limp_entries_read_back :
    let t := State.reset.tables
    (t.directory 8).2 = some ⟨some 0, .front, 6, some 24⟩ ∧ (t.directory 63).2 = some ⟨none, .either, 0, none⟩ ∧
      (t.route 1).2 = some ⟨0, .switch, false, 8, 8, 0, 0⟩ ∧ (t.event 15).2 = some ⟨true, .closing, .restart, false, some 48, none⟩ ∧
      (t.action 49).2 = some ⟨.wait 150, 1⟩ ∧ (t.action 50).2 = some ⟨.testLevel 13 true 0, 1⟩ ∧
      (t.load 10).2 = some ⟨some 2, 1, .indicator, some .left, .keep, 1, 35⟩ ∧ (t.pod 3).2 = some ⟨25, .rear⟩ ∧
      (t.descriptor 4).2 = some ⟨4, 120, 15, .below, some 20, 6⟩ ∧ (t.gauge 3).2 = some ⟨.coil, .tach, 3, 100⟩ ∧
      t.fan.2 = some ⟨true, [250, 400, 600, 700, 800, 900, 1000]⟩ ∧ (t.curve 1).2 = some ⟨[(120, 0), (480, 500), (900, 1000)]⟩ ∧
      (t.param .litLength).2 = 33 := by
  decide +kernel

/-! ## One small step of most commands -/

theorem test_supply_commands :
    leadsTo (exec (.lowSupplyHold 5) State.reset) (fun t => t.power = .held && t.now == 5) = true ∧
      leadsTo (exec (.feedFellBelow2V5 5) { State.reset with power := .held }) (fun t => t.power = .lost && t.draws == 1) = true ∧
      leadsTo (exec (.feedFellBelow2V5 5) { State.reset with power := .unloaded }) (fun t => t.power = .lost) = true := by
  decide +kernel

/-- The straps of State.reset (log 8). -/
def noStraps : Straps := ⟨0, .positive, .separate⟩

/-- A power-on ends a hold only after the feed fell below 2.5 V or where loading was cut short; a brown-out ends every other (R173). -/
theorem test_power_on_and_brown_out :
    leadsTo (exec (.powerOn 5 ⟨noStraps, true⟩) { State.reset with power := .held }) (fun t => t.power = .held) = true ∧
      leadsTo (exec (.powerOn 5 ⟨noStraps, false⟩) { State.reset with power := .lost }) (fun t => t.power = .unloaded) = true ∧
      leadsTo (exec (.brownOut 5) { State.reset with power := .held, straps := ⟨3, .negative, .combined⟩ })
        (fun t => t.power = .running && t.straps.addr == 3 && t.events.debounceTimer == some 20005) = true ∧
      leadsTo (exec (.brownOut 5) State.reset) (fun t => t.events.debounceTimer == some 20000) = true ∧
      leadsTo (exec (.brownOut 5) { State.reset with power := .lost }) (fun t => t.power = .lost) = true := by
  decide +kernel

/-- A brown-out with a failing LOAD word: PARITY, cleared first, counts the one entry. -/
theorem test_brown_out_counts_parity :
    leadsTo (exec (.brownOut 5) { State.failingAt { State.reset with tables := { State.reset.tables with parityCount := 9#16 } } 960 with power := .held })
      (fun t => t.tables.parityCount == 1#16 && t.tables.tableFault) = true := by
  decide +kernel

/-- A disturbed ROUTE word fails, and its entry reads as failing. -/
theorem test_bits_disturbed :
    leadsTo (exec (.bitsDisturbedInStorage 0 .route 255 7#16) State.reset)
      (fun t => (t.tables.word 383).fails && (t.tables.route 127).2.isNone && !(t.tables.route 126).2.isNone) = true := by
  decide +kernel

theorem test_byte_received :
    leadsTo (exec (.byteReceived 1000 .front .begins) State.reset) (fun t => t.front.line = .receiving && t.front.byteOnWire) = true ∧
      leadsTo (exec (.byteReceived 999 .front .begins) State.reset) (fun t => t.front.line = .skipping) = true := by
  decide +kernel

/-- The SWITCH frame of section 2.2 is routed; with its payload byte disturbed it fails its check. -/
theorem test_frame_end :
    leadsTo (exec (.frameEnd 1000 .front) (received switchBytes))
        (fun t => t.front.servingOf .routed = some ⟨1, 8, 0, [5#8]⟩ && t.front.counters.rxGood == 1#16) = true ∧
      leadsTo (exec (.frameEnd 1000 .front) (received [0x01#8, 0x08#8, 0x00#8, 0x01#8, 0x04#8, 0xF9#8, 0xF6#8]))
        (fun t => t.front.poolA = .free && t.front.counters.rxCheck == 1#16) = true := by
  decide +kernel

theorem test_skip_end_and_transmit_start :
    leadsTo (exec (.skipEnd 1000 .rear) { State.reset with rear := { State.reset.rear with line := .skipping } })
        (fun t => t.rear.line = .idle) = true ∧
      leadsTo (exec (.transmitStart 1500 .front) (front fun q => { q with queue := [lampEntry] }))
        (fun t => t.front.line = .transmitting && t.front.queue == [{ lampEntry with started := true }]) = true := by
  decide +kernel

theorem test_sent_byte_read_back :
    leadsTo (exec (.sentByteReadBackEqual 500 .front) (sending lampEntry [])) (fun t => t.front.sentBytes == 1) = true ∧
      leadsTo (exec (.sentByteReadBackEqual 500 .front) (front fun _ => { (sending lampEntry []).front with sentBytes := 9 }))
        (fun t => t.front.sentBytes == 9) = true := by
  decide +kernel

theorem test_frame_sent_and_collision :
    leadsTo (exec (.frameSent 500 (.withRefill .front)) (sending lampEntry []))
        (fun t => t.front.queue.isEmpty && t.front.counters.txSent == 1#16 && !t.front.refillOwed) = true ∧
      leadsTo (exec (.collision 500 (.withRefill .front)) (sending lampEntry []))
        (fun t => t.front.queue == [lampEntry] && !(t.lamps.pods[(0 : Fin 12)]).dirty && t.front.counters.txCollide == 1#16) = true ∧
      leadsTo (exec (.collision 500 (.alone .front)) (sending lampEntry []))
        (fun t => t.front.queue.isEmpty && (t.lamps.pods[(0 : Fin 12)]).dirty && t.front.refillOwed) = true := by
  decide +kernel

/-- FRONT sends the head of a full queue, pod 0 is dirty, and REAR holds a transit frame to copy. -/
def offering : State :=
  { State.updPod (sending ⟨⟨9, 1, 0, []⟩, false, none, false⟩ (queueOf 7)) 0 (fun r => { r with dirty := true }) with
    tables := State.reset.tables.writeWords 1347 [1#16], rear := (serving .transit ⟨9, 30, 6, [1#8]⟩).front }

/-- The two orders of R29: the freed entry goes to the refill and the copy is dropped, or to the copy and the pod stays dirty. -/
theorem test_refill_and_offer_in_either_order :
    leadsTo (andThen (exec (.frameSent 500 (.withRefill .front)) offering) (.transitCopy 0 .rear))
        (fun t => !(t.lamps.pods[(0 : Fin 12)]).dirty && t.front.counters.txDrop == 1#16 && t.front.queue.length == 8) = true ∧
      leadsTo (andThen (andThen (exec (.frameSent 500 (.alone .front)) offering) (.transitCopy 0 .rear)) (.frameSent 0 (.refill .front)))
        (fun t => (t.lamps.pods[(0 : Fin 12)]).dirty && t.front.counters.txDrop == 0#16 && t.front.queue.length == 8 && !t.front.refillOwed) = true := by
  decide +kernel

theorem test_transit_copy :
    leadsTo (exec (.transitCopy 0 .front) (serving .transit ⟨30, 8, 9, []⟩)) (fun t => t.rear.queue.isEmpty && t.front.poolA = .free) = true ∧
      leadsTo (exec (.transitCopy 0 .front) (State.withWords (serving .transit ⟨30, 8, 9, []⟩) 1346 [1#16]))
        (fun t => t.rear.queue == [⟨⟨30, 8, 9, []⟩, false, none, false⟩]) = true := by
  decide +kernel

/-- The SWITCH frame of section 2.2 closes E0 and E2 and opens E1, E3 and E4. -/
theorem test_route_walk_switch :
    leadsTo (exec (.routeWalk 0 .front) (serving .routed ⟨1, 8, 0, [5#8]⟩))
      (fun t => [0, 1, 2, 3, 4].map (fun c : Fin 32 => (t.events.channels[c]).level) == [.isClosed, .isOpen, .isClosed, .isOpen, .isOpen] &&
        (t.events.channels[(0 : Fin 32)]).pending == some .closing && (t.events.channels[(1 : Fin 32)]).pending == none &&
        (t.routes.sources[(8 : Fin 64)]).heard = .heard) = true := by
  decide +kernel

/-- A report from pod 0 makes it LIVE. -/
theorem test_route_walk_report :
    leadsTo (exec (.routeWalk 0 .front) (serving .routed ⟨1, 16, 3, List.replicate 9 0#8⟩))
      (fun t => (t.lamps.pods[(0 : Fin 12)]).state = .live && t.routes.reportError == 0#16) = true := by
  decide +kernel

/-- E0's closing edge asks for LEFT, and nothing flashes while IGNITION is clear. -/
theorem test_action_take :
    leadsTo (exec (.actionTake 0) (State.reset.updChannel 0 fun x => { x with pending := some .closing }))
      (fun t => t.engine.indicate == some .left && t.flasher.state = .idle && (t.events.channels[(0 : Fin 32)]).pending.isNone) = true := by
  decide +kernel

/-- With IGNITION set, the same edge lights the left indicators. -/
theorem test_action_take_flashes :
    leadsTo (exec (.actionTake 0) (State.driving (State.reset.updChannel 0 fun x => { x with pending := some .closing })))
      (fun t => t.flasher.state = .lit && t.flasher.counter == 33 && (t.lamps.loads[(8 : Fin 32)]).effective == 15 &&
        (t.lamps.loads[(9 : Fin 32)]).effective == 0) = true := by
  decide +kernel

theorem test_wait_expiry_and_chain_resume :
    leadsTo (exec (.waitExpiry 100 3) ((State.reset.updSlot 1 fun _ => ⟨.suspended, 15, some 50, some 100⟩).updSlot 3 fun _ =>
        ⟨.suspended, 8, none, some 100⟩))
        (fun t => (t.engine.slots[(1 : Fin 4)]).state = .due && (t.engine.slots[(3 : Fin 4)]).state = .due && (t.engine.slots[(0 : Fin 4)]).state = .free) = true ∧
      leadsTo (exec (.chainResume 0) (State.reset.updSlot 1 fun _ => ⟨.due, 15, some 50, none⟩))
        (fun t => (t.engine.slots[(1 : Fin 4)]).state = .free && (t.lamps.loads[(12 : Fin 32)]).ramp) = true := by
  decide +kernel

theorem test_watch_expiry :
    leadsTo (exec (.watchExpiry 3000000 8) State.reset)
      (fun t => (t.routes.sources[(8 : Fin 64)]).heard = .silent && (t.events.channels[(24 : Fin 32)]).pending == some .closing) = true := by
  decide +kernel

theorem test_ignition :
    leadsTo (exec (.ignitionInputChange 7 true) State.reset) (fun t => t.events.rawIgnition && t.events.debounceTimer == some 20007) = true ∧
      leadsTo (exec (.ignitionDebounceExpiry 20000) { State.reset with events := { State.reset.events with rawIgnition := true } })
        (fun t => t.events.debounced == some true && (t.events.channels[(31 : Fin 32)]).pending == some .closing) = true := by
  decide +kernel

theorem test_load_timers :
    leadsTo (exec (.loadFadeExpiry 100000) (State.reset.updLoad 12 fun r => { r with requested := 15, ramp := true }))
        (fun t => (t.lamps.loads[(12 : Fin 32)]).effective == 1 && t.front.queue.length == 1) = true ∧
      leadsTo (exec (.coolOffExpiry 5 0) (State.reset.updLoad 0 fun r => { r with requested := 15, trip := .cooling, retry := 1, coolOff := some 5 }))
        (fun t => (t.lamps.loads[(0 : Fin 32)]).effective == 15 && (t.lamps.loads[(0 : Fin 32)]).retry == 1) = true := by
  decide +kernel

theorem test_pod_timers :
    leadsTo (exec (.refreshExpiry 500000 0) State.reset) (fun t => t.front.queue == [lampEntry]) = true ∧
      leadsTo (exec (.reportTimerExpiry 1500000 0) State.reset) (fun t => (t.lamps.pods[(0 : Fin 12)]).state = .silent) = true := by
  decide +kernel

/-- At the last tick of a LIT phase the flasher goes DARK for 33 ticks. -/
theorem test_flasher_tick :
    leadsTo (exec (.flasherTick 0) { State.driving State.reset with
        engine := { (State.driving State.reset).engine with indicate := some .left }, flasher := ⟨.lit, 1, 33, .normal, some 0⟩ })
      (fun t => t.flasher.state = .dark && t.flasher.counter == 33 && t.flasher.tick == some 10000) = true := by
  decide +kernel

theorem test_conversion :
    leadsTo (exec (.conversion 20000 590#10 1#10 2#10 3#10) State.reset)
      (fun t => (t.sampler.descriptors[(0 : Fin 16)]).sum == 590 && (t.sampler.descriptors[(3 : Fin 16)]).average == some 3 &&
        (t.sampler.descriptors[(4 : Fin 16)]).held == 0) = true := by
  decide +kernel

theorem test_sampler_timers :
    leadsTo (exec (.staleExpiry 1000000 0) State.reset) (fun t => (t.sampler.descriptors[(0 : Fin 16)]).stale) = true ∧
      leadsTo (exec (.coilPulse 0) State.reset) (fun t => t.sampler.gateCount == 1) = true ∧
      leadsTo (exec (.gateExpiry 500000) { State.reset with sampler := { State.reset.sampler with gateCount := 50 } })
        (fun t => t.sampler.tach == some 375 && (t.gauges.gauges[(3 : Fin 4)]).target == 500) = true := by
  decide +kernel

theorem test_gauge_update :
    leadsTo (exec (.gaugeUpdate 100000) { State.driving State.reset with
        engine := { (State.driving State.reset).engine with fanRequest := 3 }
        gauges := { State.reset.gauges with gauges := State.reset.gauges.gauges.set 1 ⟨761, 0, 0, false, false, false⟩ } })
      (fun t => (t.gauges.gauges[(1 : Fin 4)]).deflection == 20 && t.gauges.fan.fraction == 50) = true := by
  decide +kernel

/-- The reply a service test expects first in FRONT's queue. -/
def replies (r : Result) (payload : List Byte) : Bool := leadsTo r fun t => (t.front.queue.map (·.frame)) == [⟨60, 1, 5, payload⟩] && t.front.poolA == .free

theorem test_identify :
    replies (exec (.identify 0 .front) (asking [1#8])) [1#8, 0#8, 0x02#8, 0x80#8, 1#8, 1#8, 0#8, 1#8, 0#8, 0#8, 0#8, 0#8] = true := by
  decide +kernel

theorem test_read_table :
    replies (exec (.readTable 0 .front) (asking [2#8, 9#8, 0#8, 6#8, 2#8])) [2#8, 0#8, 0#8, 0#8, 33#8, 0#8, 33#8] = true ∧
      replies (exec (.readTable 0 .front) (asking [2#8, 9#8, 0#8, 63#8, 2#8])) [2#8, 2#8] = true := by
  decide +kernel

theorem test_write_table :
    leadsTo (exec (.writeTable 0 .front) (asking [3#8, 9#8, 0#8, 6#8, 0#8, 40#8]))
        (fun t => t.tables.peekParam .litLength == 40 && t.tables.source = .modified) = true ∧
      replies (exec (.writeTable 0 .front) (State.driving (asking [3#8, 9#8, 0#8, 6#8, 0#8, 40#8]))) [3#8, 3#8] = true := by
  decide +kernel

theorem test_read_state :
    replies (exec (.readState 0 .front) (asking [4#8, 1#8, 31#8])) [4#8, 0#8, 0#8, 0xFF#8, 0#8, 0#8] = true ∧
      replies (exec (.readState 0 .front) (asking [4#8, 1#8, 32#8])) [4#8, 2#8] = true := by
  decide +kernel

theorem test_read_counters :
    replies (exec (.readCounters 0 .front) (asking [5#8, 2#8, 0#8])) (5#8 :: 0#8 :: List.replicate 12 0#8) = true ∧
      replies (exec (.readCounters 0 .front) (asking [5#8, 3#8, 0#8])) [5#8, 2#8] = true := by
  decide +kernel

theorem test_clear_latch :
    leadsTo (exec (.clearLatch 0 .front) ((asking [6#8, 0#8]).updLoad 0 fun r => { r with requested := 15, trip := .latched, retry := 3 }))
      (fun t => (t.lamps.loads[(0 : Fin 32)]).trip = .normal && (t.lamps.loads[(0 : Fin 32)]).effective == 15) = true := by
  decide +kernel

theorem test_store_complete :
    leadsTo (exec (.storeComplete 0 true) { State.reset with service := .storing 60 .front [(0, 7#16)] })
      (fun t => t.nvWord 0 == 7#16 && t.tables.source = .nv && t.service = .idle) = true := by
  decide +kernel

theorem test_restart :
    leadsTo (exec (.restart 0 .front) (asking [9#8])) (fun t => t.service = .restarting && t.front.queue.length == 1) = true := by
  decide +kernel

theorem test_bad_request :
    replies (exec (.badRequest 0 .front) (asking [])) [0xFF#8, 1#8] = true ∧
      replies (exec (.badRequest 0 .front) (asking [1#8, 0#8])) [1#8, 1#8] = true := by
  decide +kernel

theorem test_load_limp_not_parked :
    replies (exec (.loadLimp 0 .front) (State.driving (asking [8#8, 0#8]))) [8#8, 3#8] = true := by
  decide +kernel

/-! ## Every statement's hypotheses can be met -/

theorem test_witness_StepRunsFrontCommand : State.reset.pending = [] := rfl

theorem test_witness_WellFormedCommandsComplete :
    ∀ c ∈ [Instr.bitsDisturbedInStorage 0 .directory 127 0#16, .actionTake 0], c.wellFormed = true := by decide

/-- Each state of the feed, with both outcomes of a rise, and a STORE in flight. -/
theorem test_witness_supply :
    State.reset.power = .running ∧ State.reset.service = .idle ∧ ({ State.reset with power := .held } : State).power = .held ∧
      ({ State.reset with power := .held } : State).power ≠ .running ∧ State.reset.power ≠ .held ∧
      ({ State.reset with power := .lost } : State).power = .lost ∧ ({ State.reset with power := .unloaded } : State).power = .unloaded ∧
      (⟨noStraps, true⟩ : FeedRise).loaded = true ∧ (⟨noStraps, false⟩ : FeedRise).loaded = false ∧
      ({ State.reset with service := .storing 60 .front [] } : State).service = .storing 60 .front [] := by decide

/-- A block read that finds its last word failing, and one that ends before it. -/
theorem test_witness_readBlock :
    let t := (State.failingAt State.reset 963).tables
    (∃ b, 960 ≤ b ∧ b < 960 + 4 ∧ (t.word b).fails = true) ∧ (t.readBlock 960 4).2 = none ∧ (t.readBlock 960 3).2.isSome = true ∧
      ∀ b, 960 ≤ b → b < 960 + 3 → (t.word b).fails = false := by
  refine ⟨⟨963, by decide, by decide, by decide +kernel⟩, by decide +kernel, by decide +kernel, fun b h k => ?_⟩
  have : b = 960 ∨ b = 961 ∨ b = 962 := by omega
  rcases this with rfl | rfl | rfl <;> decide +kernel

theorem test_witness_DisturbedWordFails : 127 < Area.directory.words ∧ Area.directory.words ≤ 128 ∧ 31 < Area.gauge.words ∧ Area.gauge.words ≤ 32 := by
  decide

/-- Each way a form can fail, at its boundary: 5 bytes, one byte too few and one too many, a length of 17, a kind of 16, addresses of 64, and
a byte fault. -/
theorem test_witness_FormatErrorCountsOnce :
    (received switchBytes).front.line = .receiving ∧ (received switchBytes).front.QuietFor 1000 1000 ∧
      (∀ r ∈ [(received (switchBytes.take 5)).front.reception, (received (switchBytes.take 6)).front.reception,
          (received (switchBytes ++ [0#8])).front.reception, (received ([1#8, 8#8, 0#8, 17#8] ++ List.replicate 19 0#8)).front.reception,
          (received [1#8, 8#8, 16#8, 0#8, 0#8, 0#8]).front.reception, (received [64#8, 8#8, 0#8, 0#8, 0#8, 0#8]).front.reception,
          (received [1#8, 64#8, 0#8, 0#8, 0#8, 0#8]).front.reception, { (received switchBytes).front.reception with byteFault := true }],
        r.count < 6 ∨ r.count < 6 + byteAt r.bytes 3 ∨ 6 + byteAt r.bytes 3 < r.count ∨ 16 < byteAt r.bytes 3 ∨ 15 < byteAt r.bytes 2 ∨
          63 < byteAt r.bytes 0 ∨ 63 < byteAt r.bytes 1 ∨ r.byteFault = true) := by
  decide +kernel

/-- A frame that passes both judgements, and one that passes the first alone. -/
theorem test_witness_CheckJudgedAfterForm :
    (∀ bytes ∈ [switchBytes, switchBytes.take 6 ++ [0xF7#8]],
      (received bytes).power = .running ∧ (received bytes).front.line = .receiving ∧ (received bytes).front.QuietFor 1000 1000 ∧
        (received bytes).front.reception.formatError = false) ∧
      (received switchBytes).front.reception.receivedCheck = (checkOf (received switchBytes).front.reception.frame.body).toNat ∧
      (received (switchBytes.take 6 ++ [0xF7#8])).front.reception.receivedCheck ≠
        (checkOf (received (switchBytes.take 6 ++ [0xF7#8])).front.reception.frame.body).toNat := by
  decide +kernel

/-- A good frame and each pair of pools a port can be in. -/
theorem test_witness_GoodFrameIsPlaced :
    (received switchBytes).front.reception.checkPasses = true ∧ (received switchBytes).front.PoolsWf ∧
      (serving .routed ⟨1, 8, 0, []⟩).front.PoolsWf ∧
      ({ State.reset.front with poolB := .serving ⟨⟨1, 8, 0, []⟩, .routed⟩ } : Port).PoolsWf ∧
      ({ (serving .routed ⟨1, 8, 0, []⟩).front with poolB := .held ⟨⟨1, 8, 0, []⟩, .routed⟩ } : Port).PoolsWf :=
  ⟨by decide +kernel, trivial, trivial, trivial, trivial⟩

theorem test_witness_LineEventsComplete :
    let skipping : Port := { State.reset.front with line := .skipping }
    let waiting : Port := { State.reset.front with queue := [lampEntry] }
    (skipping.line = .skipping ∧ skipping.QuietFor 1000 1000) ∧
      (waiting.line = .idle ∧ waiting.queue = lampEntry :: [] ∧ waiting.QuietFor 1500 1500) ∧
      (sending lampEntry []).front.line = .transmitting ∧ (sending lampEntry []).front.queue = { lampEntry with started := true } :: [] ∧
      8 + 1 < 6 + lampEntry.frame.payload.length := by
  decide

/-- A head frame that leaves its queue: with no dirty pod, as the reply of a RESTART, and as an abandoned LAMPCMD for pod 0 or, on the port that is not
its pod's, for pod 2; and a refill owed. -/
theorem test_witness_FrameSentFreesTheHead_and_CollisionAbandonsTheHead :
    (sending lampEntry (queueOf 7)).front.line = .transmitting ∧
      (sending lampEntry (queueOf 7)).front.queue = { lampEntry with started := true } :: queueOf 7 ∧
      (∀ P : Fin 12, ((sending lampEntry (queueOf 7)).lamps.pods[P]).dirty = false) ∧ lampEntry.restartReply = false ∧
      ({ lampEntry with restartReply := true } : QueueEntry).restartReply = true ∧ ({ lampEntry with pod := none } : QueueEntry).pod = none ∧
      lampEntry.pod = some 0 ∧ (State.reset.tables.pod 0).2 = some ⟨16, .front⟩ ∧ (queueOf 7).length < 8 ∧
      ({ lampEntry with pod := some 2 } : QueueEntry).pod = some 2 ∧ (State.reset.tables.pod 2).2 = some ⟨24, .rear⟩ ∧
      (front fun q => { q with refillOwed := true }).front.refillOwed = true ∧ State.reset.front.refillOwed = false := by
  decide +kernel

theorem test_witness_OfferedFrameIsAppendedOrDropped : (queueOf 7).length < 8 ∧ 8 ≤ (queueOf 8).length := by decide

theorem test_witness_LampcmdCoalesces :
    (∀ y ∈ queueOf 7, y.waitsFor 0 = false) ∧ lampEntry.waitsFor 0 = true ∧ (queueOf 7).length < 8 ∧
      (∀ y ∈ queueOf 8, y.waitsFor 0 = false) ∧ 8 ≤ (queueOf 8).length := by
  decide

/-- A dirty pod of FRONT loses its mark in a refill of FRONT, and keeps it where the queue is full. -/
theorem test_witness_RefillServesDirtyPods :
    let s := State.reset.updPod 0 fun r => { r with dirty := true }
    let full := { s with front := { s.front with queue := queueOf 8 } }
    (s.lamps.pods[(0 : Fin 12)]).dirty = true ∧ (s.tables.pod 0).2 = some ⟨16, .front⟩ ∧ ((refill s .front).lamps.pods[(0 : Fin 12)]).dirty = false ∧
      ((refill s .front).port .front).queue.length < 8 ∧ 8 ≤ full.front.queue.length ∧ (∀ x ∈ full.front.queue, x.waitsFor 0 = false) ∧
      ((refill full .front).lamps.pods[(0 : Fin 12)]).dirty = true := by
  decide +kernel

theorem test_witness_TransitFrameIsCopiedOrDiscarded :
    (serving .transit ⟨30, 8, 9, []⟩).Serves .front .transit ⟨30, 8, 9, []⟩ ∧ State.reset.tables.peekParam .transitFrontRear = 0 ∧
      (State.withWords (serving .transit ⟨30, 8, 9, []⟩) 1346 [1#16]).Serves .front .transit ⟨30, 8, 9, []⟩ ∧
      (State.withWords (serving .transit ⟨30, 8, 9, []⟩) 1346 [1#16]).tables.peekParam .transitFrontRear ≠ 0 := by
  decide +kernel

/-- A state that every invariant holds of and that steps on. -/
def stepping : State := { State.reset with pending := [.coilPulse 5] }

theorem test_witness_StepKeepsPorts :
    (∀ p, QueueWf (stepping.port p).queue ∧ (stepping.port p).PoolsWf ∧ (stepping.port p).reception.Wf) ∧
      leadsTo (step stepping) (fun _ => true) = true := by
  refine ⟨fun p => ?_, rfl⟩
  cases p <;> exact ⟨by decide, trivial, by decide⟩

theorem test_witness_StepKeepsRecords :
    stepping.MemoryWf ∧ stepping.SlotsWf ∧ (∀ l : Fin 32, (stepping.lamps.loads[l]).Wf) ∧ stepping.PodsMerged ∧ stepping.FlasherWf ∧
      stepping.gauges.Bounded ∧ (stepping.ignition = false → stepping.gauges.AtRest) ∧ (∀ a : Fin 64, (stepping.routes.sources[a]).Wf) ∧
      ∀ P : Fin 12, (stepping.lamps.pods[P]).Wf :=
  ⟨by decide +kernel, by decide +kernel, by decide +kernel, by decide +kernel, by decide +kernel, by decide +kernel, by decide +kernel,
    by decide +kernel, by decide +kernel⟩

theorem test_witness_StepKeepsDescriptors : ∀ d : Fin 16, (stepping.sampler.descriptors[d]).Wf := by
  intro d
  have h : (stepping.sampler.descriptors[d]).window = none ∧ (stepping.sampler.descriptors[d]).held = 0 ∧
      (stepping.sampler.descriptors[d]).sum = 0 ∧ (stepping.sampler.descriptors[d]).average = none := by revert d; decide +kernel
  unfold DescriptorRecord.Wf
  rw [h.1, h.2.1, h.2.2.1, h.2.2.2]
  simp

/-- A routed frame of source 8 that its slot admits, that comes from the wrong port, whose slot fails, and of a source with no route head. -/
theorem test_witness_RoutedFrameIsHeardOrMissed :
    let f : Frame := ⟨1, 8, 0, [5#8]⟩
    (serving .routed f).Serves .front .routed f ∧ ((serving .routed f).tables.directory f.src).2 = some ⟨some 0, .front, 6, some 24⟩ ∧
      HomePort.front.admits .front = true ∧ HomePort.front.admits .rear = false ∧
      ({ State.reset with rear := (serving .routed f).front } : State).Serves .rear .routed f ∧
      ((State.failingAt (serving .routed f) 16).tables.directory f.src).2 = none ∧
      (State.failingAt (serving .routed f) 16).Serves .front .routed f ∧
      (State.reset.tables.directory 5).2 = some ⟨none, .either, 0, none⟩ ∧ HomePort.either.admits .front = true := by
  decide +kernel

/-- Source 8's chain as ROUTE entries 0 to 6 of another kind, each linked to the next, and entry 7: a match, the end of what a walk may read, and a failing
entry; a link of 0; links that lead outside the area on either side; and the source SILENT, with a silence channel and without. -/
theorem test_witness_RoutedFrame_chain :
    let f : Frame := ⟨1, 8, 0, [5#8]⟩
    let words : List Word16 := [0x1000#16, 1#16, 0x1000#16, 1#16, 0x1000#16, 1#16, 0x1000#16, 1#16, 0x1000#16, 1#16, 0x1000#16, 1#16, 0x1000#16, 1#16]
    let long (last : List Word16) : State := State.withWords (serving .routed f) 128 (words ++ last)
    (∀ k < 7, ((long [0#16, 0x1000#16]).tables.route (Fin.ofNat 128 k)).2 = some ⟨1, .drop, false, 0, 0, 0, 1⟩) ∧
      ((long [0#16, 0x1000#16]).tables.route 7).2 = some ⟨0, .switch, false, 0, 0, 0, 0⟩ ∧ (long [0#16, 0x1000#16]).Serves .front .routed f ∧
      ((long [0x1000#16, 1#16]).tables.route 7).2 = some ⟨1, .drop, false, 0, 0, 0, 1⟩ ∧
      ((State.failingAt (long []) 142).tables.route 7).2 = none ∧
      ((State.withWords (serving .routed f) 128 [0x1000#16, 0#16]).tables.route 0).2 = some ⟨1, .drop, false, 0, 0, 0, 0⟩ ∧
      ((State.withWords (serving .routed f) 128 [0x1000#16, 0x3F#16]).tables.route 0).2 = some ⟨1, .drop, false, 0, 0, 0, -1⟩ ∧
      ((State.withWords (serving .routed f) 382 [0x1000#16, 1#16]).tables.route 127).2 = some ⟨1, .drop, false, 0, 0, 0, 1⟩ ∧
      ((State.updSource (serving .routed f) 8 fun _ => ⟨.silent, none⟩).routes.sources[f.src]).heard = .silent := by
  decide +kernel

/-- What the chain of the test above does: the last entry a walk may read matches, no entry does, and the entry fails. -/
theorem test_route_walk_chains :
    let f : Frame := ⟨1, 8, 0, [5#8]⟩
    let words : List Word16 := [0x1000#16, 1#16, 0x1000#16, 1#16, 0x1000#16, 1#16, 0x1000#16, 1#16, 0x1000#16, 1#16, 0x1000#16, 1#16, 0x1000#16, 1#16]
    let long (last : List Word16) : State := State.withWords (serving .routed f) 128 (words ++ last)
    leadsTo (exec (.routeWalk 0 .front) (long [0#16, 0x1000#16])) (fun t => (t.events.channels[(0 : Fin 32)]).level = .isClosed) = true ∧
      leadsTo (exec (.routeWalk 0 .front) (long [0x1000#16, 1#16])) (fun t => t.routes.routeMiss == 1#16) = true ∧
      leadsTo (exec (.routeWalk 0 .front) (State.failingAt (long []) 142))
        (fun t => t.routes.routeMiss == 0#16 && t.tables.parityCount == 1#16 && (t.routes.sources[(8 : Fin 64)]).heard = .heard) = true ∧
      leadsTo (exec (.routeWalk 0 .front) (State.updSource (serving .routed f) 8 fun _ => ⟨.silent, none⟩))
        (fun t => (t.events.channels[(24 : Fin 32)]).level = .isOpen) = true := by
  decide +kernel

/-- The sender pod's route is a SENDER entry, whose readings reach S4 and S15, the first of a frame of five; one of its descriptors fails; and entries with
the also-forward flag. -/
theorem test_witness_Sender_and_AlsoForward :
    let f : Frame := ⟨1, 32, 1, [0#8, 110#8, 0xFF#8]⟩
    let s : State := { State.reset with rear := (serving .routed f).front }
    s.Serves .rear .routed f ∧ (s.tables.directory 32).2 = some ⟨some 3, .rear, 0, none⟩ ∧
      (s.tables.route 3).2 = some ⟨1, .sender, false, 4, 1, 0, 0⟩ ∧ 2 * 0 + 2 ≤ f.payload.length ∧ ¬2 * 1 + 2 ≤ f.payload.length ∧
      ((State.withWords s 134 [0x1100#16, 0x23C0#16]).tables.route 3).2 = some ⟨1, .sender, false, 15, 4, 0, 0⟩ ∧
      ((State.withWords s 134 [0x1100#16, 0x2800#16]).tables.route 3).2 = some ⟨1, .sender, true, 0, 4, 0, 0⟩ ∧
      ((State.failingAt s 1136).tables.descriptor 4).2 = none := by
  decide +kernel

/-- A reading above 1023 reaches S4 as 1023, and the odd byte behind it nothing; with also-forward the frame is copied to the other port too. -/
theorem test_route_walk_sender :
    let f : Frame := ⟨1, 32, 1, [0xFF#8, 0#8, 0xFF#8]⟩
    let s : State := { State.reset with rear := (serving .routed f).front }
    leadsTo (exec (.routeWalk 0 .rear) s)
        (fun t => (t.sampler.descriptors[(4 : Fin 16)]).sum == 1023 && (t.sampler.descriptors[(5 : Fin 16)]).held == 0) = true ∧
      leadsTo (exec (.routeWalk 0 .rear) (State.withWords s 134 [0x1045#16, 0x2900#16]))
        (fun t => (t.sampler.descriptors[(4 : Fin 16)]).sum == 1023 && t.front.queue == [⟨{ f with dest := 5 }, false, none, false⟩]) = true := by
  decide +kernel

/-- Source 8's route is a SWITCH; the first entry of its chain rewritten gives a FORWARD and a DROP. -/
theorem test_witness_SwitchBits_and_ForwardCopies :
    let f : Frame := ⟨1, 8, 0, [5#8]⟩
    let forwarding := State.withWords (serving .routed f) 129 [0x4000#16]
    let dropping := State.withWords (serving .routed f) 129 [0#16]
    ((State.reset.routes.sources[f.src]).heard ≠ .silent ∧ (State.reset.tables.route 0).2 = some ⟨0, .switch, false, 0, 5, 0, 0⟩) ∧
      (forwarding.Serves .front .routed f ∧ (forwarding.tables.directory 8).2 = some ⟨some 0, .front, 6, some 24⟩ ∧
        (forwarding.tables.route 0).2 = some ⟨0, .forward, false, 0, 5, 0, 0⟩) ∧
      dropping.Serves .front .routed f ∧ (dropping.tables.route 0).2 = some ⟨0, .drop, false, 0, 5, 0, 0⟩ := by
  decide +kernel

/-- What an optional value holds, checked of the value itself. -/
theorem all_of_option {α : Type} {o : Option α} {p : α → Prop} [DecidablePred p] (h : (o.all fun a => decide (p a)) = true) : ∀ a, o = some a → p a := by
  intro a ha
  subst ha
  simpa using h

/-- A report of nine bytes from pod 0; one of eight bytes; and one of a source that no pod record has. -/
theorem test_witness_ReportReachesItsPod :
    let f : Frame := ⟨1, 16, 3, List.replicate 9 0#8⟩
    let unmatched := State.withWords (serving .routed f) 1088 [0#16]
    ((serving .routed f).Serves .front .routed f ∧ (State.reset.tables.directory 16).2 = some ⟨some 2, .front, 0, none⟩ ∧
        (State.reset.tables.route 2).2 = some ⟨3, .report, false, 0, 1, 0, 0⟩ ∧ (State.reset.tables.pod 0).2 = some ⟨16, .front⟩ ∧
        f.payload.length = 9 ∧ (List.replicate 8 0#8 : List Byte).length ≠ 9) ∧
      unmatched.Serves .front .routed f ∧
        ∀ (P : Fin 12) (E : PodEntry), (unmatched.tables.pod P).2 = some E → E.address = f.src → E.address = 0 := by
  refine ⟨by decide +kernel, by decide +kernel, fun P => all_of_option ?_⟩
  revert P
  decide +kernel

/-- A report that trips load 0 as lit by pod 0: the load is judged and then resolved to level 0. -/
theorem test_route_walk_report_trips :
    let f : Frame := ⟨1, 16, 3, 1#8 :: List.replicate 8 0#8⟩
    leadsTo (exec (.routeWalk 0 .front) (State.updLoad (serving .routed f) 0 fun r => { r with requested := 15, current := 15, effective := 15, demand := true }))
      (fun t => (t.lamps.loads[(0 : Fin 32)]).trip = .cooling && (t.lamps.loads[(0 : Fin 32)]).effective == 0 &&
        (t.lamps.loads[(0 : Fin 32)]).retry == 1) = true ∧
      (0 : Fin 32) ∈ ((List.finRange 32).foldl (judgeLoad 0 0 f.payload) (State.reset.tables,
        State.reset.lamps.loads.set 0 { State.reset.lamps.loads[(0 : Fin 32)] with effective := 15 }, [])).2.2 := by
  decide +kernel

/-- Source 8's watch timer at its moment: with a silence channel, with none, with a period written 0, and with a failing slot. -/
theorem test_witness_WatchExpiryFindsSilence :
    (State.reset.routes.sources[(8 : Fin 64)]).watch = some 3000000 ∧ (State.reset.tables.directory 8).2 = some ⟨some 0, .front, 6, some 24⟩ ∧
      ((State.withWords State.reset 17 [0x3F06#16]).tables.directory 8).2 = some ⟨some 0, .front, 6, none⟩ ∧
      ((State.withWords State.reset 17 [0x1800#16]).tables.directory 8).2 = some ⟨some 0, .front, 0, some 24⟩ ∧
      ((State.failingAt State.reset 17).tables.directory 8).2 = none := by
  decide +kernel

/-- A level report that changes nothing, a first OPEN, an accepted edge, one the entry does not take, and one whose entry fails. -/
theorem test_witness_LevelReportMakesEdges :
    ((State.reset.updChannel 0 fun x => { x with level := .isOpen }).events.channels[(0 : Fin 32)]).level = .isOpen ∧
      (State.reset.events.channels[(0 : Fin 32)]).level = .unknown ∧
      (State.reset.tables.event 0).2 = some ⟨true, .both, .queue, false, some 0, some 1⟩ ∧
      (State.reset.tables.event 5).2 = some ⟨false, .both, .queue, false, none, none⟩ ∧ ((State.failingAt State.reset 384).tables.event 0).2 = none := by
  decide +kernel

theorem test_witness_IgnitionIsDebounced :
    State.reset.events.rawIgnition ≠ true ∧ State.reset.events.debounceTimer = some 20000 ∧
      State.reset.events.debounced ≠ some State.reset.events.rawIgnition := by
  decide

/-- E31 taken past nothing, E0 taken past a masked, a disabled and an in-service channel, a DUE slot, and nothing to take. -/
theorem test_witness_ActionTakeTakesHighestEligible :
    let s := (((State.reset.updChannel 0 fun x => { x with pending := some .closing }).updChannel 31 fun x =>
      { x with pending := some .closing, masked := true }).updChannel 5 fun x => { x with pending := some .closing }).updChannel 4 fun x =>
      { x with pending := some .opening, inService := true }
    (∀ k : Fin 4, (s.engine.slots[k]).state ≠ .due) ∧ s.events.choiceMade = false ∧
      (∀ d : Fin 32, 0 < d → (s.events.channels[d]).pending = none ∨ (s.events.channels[d]).masked = true ∨
        ((s.tables.event d).2.any fun e' => !e'.enable || ((s.events.channels[d]).inService && e'.policy == .queue)) = true) ∧
      (s.events.channels[(0 : Fin 32)]).pending = some .closing ∧ (s.events.channels[(0 : Fin 32)]).masked = false ∧
      (s.tables.event 0).2 = some ⟨true, .both, .queue, false, some 0, some 1⟩ ∧ (s.events.channels[(0 : Fin 32)]).inService = false ∧
      (s.tables.event 31).2 = some ⟨true, .both, .queue, false, some 62, some 63⟩ ∧
      ((State.reset.updSlot 3 fun _ => ⟨.due, 0, none, none⟩).engine.slots[(3 : Fin 4)]).state = .due ∧
      ∀ d : Fin 32, (State.reset.events.channels[d]).pending = none := by
  decide +kernel

/-- E31's EVENT entry fails while its edge is pending: the choice takes the edge away, counts PARITY, and goes on to E0. -/
theorem test_action_take_past_a_failing_entry :
    let s := State.failingAt ((State.reset.updChannel 0 fun x => { x with pending := some .closing }).updChannel 31 fun x => { x with pending := some .closing }) 446
    (s.tables.event 31).2 = none ∧ (s.events.channels[(31 : Fin 32)]).masked = false ∧
      leadsTo (exec (.actionTake 0) s)
        (fun t => t.engine.indicate == some .left && (t.events.channels[(31 : Fin 32)]).pending.isNone && t.tables.parityCount == 1#16) = true := by
  decide +kernel

/-- Two waits of one moment, and a third of the next. -/
theorem test_witness_WaitsExpireTogether :
    let s := ((State.reset.updSlot 0 fun _ => ⟨.suspended, 1, none, some 8⟩).updSlot 1 fun _ => ⟨.suspended, 2, none, some 7⟩).updSlot 3 fun _ =>
      ⟨.suspended, 3, none, some 7⟩
    (s.engine.slots[(3 : Fin 4)]).state = .suspended ∧ (s.engine.slots[(3 : Fin 4)]).timer = some 7 ∧ (s.engine.slots[(1 : Fin 4)]).timer = some 7 ∧
      (s.engine.slots[(0 : Fin 4)]).timer = some 8 := by
  decide

/-- A wait at its moment, a chain resumed at END in the last slot, and one resumed at an entry. -/
theorem test_witness_WaitsExpireAndResume :
    let waiting := State.reset.updSlot 3 fun _ => ⟨.suspended, 15, some 50, some 7⟩
    let ended := State.reset.updSlot 3 fun _ => ⟨.due, 15, none, none⟩
    let goingOn := State.reset.updSlot 3 fun _ => ⟨.due, 15, some 50, none⟩
    ((waiting.engine.slots[(3 : Fin 4)]).state = .suspended ∧ (waiting.engine.slots[(3 : Fin 4)]).timer = some 7) ∧
      ((ended.engine.slots[(3 : Fin 4)]).state = .due ∧ (∀ j : Fin 4, j < 3 → (ended.engine.slots[j]).state ≠ .due) ∧
        (ended.engine.slots[(3 : Fin 4)]).next = none) ∧
      (goingOn.engine.slots[(3 : Fin 4)]).next = some 50 ∧ ∀ j : Fin 4, j < 3 → (goingOn.engine.slots[j]).state ≠ .due := by
  decide +kernel

/-- A chain in service of a RESTART channel, ready to be cancelled by a take. -/
theorem test_witness_ActionTake_cancels :
    let s := (State.reset.updChannel 15 fun x => { x with pending := some .closing, inService := true }).updSlot 3 fun _ => ⟨.suspended, 15, some 50, some 7⟩
    (s.events.channels[(15 : Fin 32)]).inService = true ∧ (s.tables.event 15).2 = some ⟨true, .closing, .restart, false, some 48, none⟩ ∧
      (s.engine.slots[(3 : Fin 4)]).state ≠ .free ∧ (s.engine.slots[(3 : Fin 4)]).channel = 15 := by
  decide +kernel

/-- Groups that clear IGNITION, start the flasher, stop it, leave it as it is, and change nothing. -/
theorem test_witness_GroupReachesTheBlocks :
    let parked := State.reset
    let turning : State := { State.driving State.reset with engine := { (State.driving State.reset).engine with indicate := some .left } }
    let lit (s : State) : State := { s with flasher := ⟨.lit, 33, 33, .normal, some 10000⟩ }
    ((State.driving parked).mode 0 = true ∧ parked.mode 0 = false) ∧
      ((turning.mode 0 = true ∧ turning.engine.indicate ≠ none) ∧ turning.flasher.state = .idle) ∧
      (¬(parked.mode 1 = true ∨ (parked.mode 0 = true ∧ parked.engine.indicate ≠ none)) ∧ (lit parked).flasher.state ≠ .idle) ∧
      ((turning.mode 1 = true ∨ (turning.mode 0 = true ∧ turning.engine.indicate ≠ none)) ↔ (lit turning).flasher.state ≠ .idle) ∧
      (commitGroup parked parked).flasher.state = parked.flasher.state := by
  decide +kernel

/-- Two entries that name no operation and lead to one another: a walk over them never ends by itself. -/
theorem test_witness_WalksFault :
    let s := State.withWords State.reset 648 [0x8000#16, 0x0001#16, 0x8000#16, 0x00FF#16]
    (s.tables.action 100).2 = some ⟨.unnamed, 1⟩ ∧ (s.tables.action 101).2 = some ⟨.unnamed, -1⟩ ∧ onward 100 1 = .goto 101 ∧
      onward 101 (-1) = .goto 100 := by
  decide +kernel

/-- Entries that are no WAIT: one whose link ends the chain, one that links on, one whose link leads below 0 and one above 255, a test that holds, and one
that fails. -/
theorem test_witness_WalkSteps :
    (State.reset.tables.action 0).2 = some ⟨.indicate (some .left), 0⟩ ∧ (State.reset.tables.action 24).2 = some ⟨.setMode 4 .set, 1⟩ ∧
      ((State.withWords State.reset 448 [0x8000#16, 0x00FF#16]).tables.action 0).2 = some ⟨.unnamed, -1⟩ ∧
      ((State.withWords State.reset 958 [0x8000#16, 1#16]).tables.action 255).2 = some ⟨.unnamed, 1⟩ ∧
      (State.reset.tables.action 8).2 = some ⟨.testMode 5 false 3, 1⟩ ∧ (testHolds (.testMode 5 false 3) State.reset).getD 1 = 3 ∧
      ((State.failingAt State.reset 448).tables.action 0).2 = none := by
  decide +kernel

/-- WAITs that link on, to the end, and outside the table; with a slot and without one. -/
theorem test_witness_WalksSuspend :
    (State.reset.tables.action 49).2 = some ⟨.wait 150, 1⟩ ∧
      ((State.withWords State.reset 546 [0x5001#16, 0#16]).tables.action 49).2 = some ⟨.wait 1, 0⟩ ∧
      ((State.withWords State.reset 448 [0x5001#16, 0x00FF#16]).tables.action 0).2 = some ⟨.wait 1, -1⟩ ∧
      ((State.withWords State.reset 958 [0x5001#16, 1#16]).tables.action 255).2 = some ⟨.wait 1, 1⟩ ∧
      availableSlot ⟨15, none⟩ State.reset = some 0 ∧
      availableSlot ⟨15, none⟩ { State.reset with engine := { State.reset.engine with slots := Vector.replicate 4 ⟨.suspended, 3, none, some 9⟩ } } = none := by
  decide +kernel

/-- A load to fade, one not to fade, one whose cool-off is over, and an entry that fails. -/
theorem test_witness_FadeAndCoolOffResolve :
    let fading := State.reset.updLoad 12 fun r => { r with requested := 1, ramp := true }
    let cooling := State.reset.updLoad 31 fun r => { r with trip := .cooling, retry := 6, coolOff := some 5 }
    (fading.lamps.fadeTimer ≤ 100000 ∧ (fading.lamps.loads[(12 : Fin 32)]).ramp = true ∧
        (fading.lamps.loads[(12 : Fin 32)]).current ≠ (fading.lamps.loads[(12 : Fin 32)]).requested) ∧
      (cooling.lamps.loads[(31 : Fin 32)]).coolOff = some 5 ∧ (State.reset.tables.load 31).2.isSome = true ∧
      ((State.failingAt State.reset 1084).tables.load 31).2 = none := by
  decide +kernel

/-- A pod whose merged levels differ from its last commanded ones, with an entry to send by, one whose address is 0, and a failing one; and a pod whose
levels stand. -/
theorem test_witness_merges :
    let lit := State.reset.updLoad 0 fun r => { r with effective := 15 }
    mergedLevels lit.lamps.loads 0 ≠ (lit.lamps.pods[(0 : Fin 12)]).levels ∧ mergedLevels lit.lamps.loads 1 = (lit.lamps.pods[(1 : Fin 12)]).levels ∧
      (lit.lamps.loads[(0 : Fin 32)]).binding = some (0, 0) ∧ (lit.tables.pod 0).2 = some ⟨16, .front⟩ ∧
      ((State.withWords lit 1088 [0#16]).tables.pod 0).2 = some ⟨0, .front⟩ ∧ ((State.failingAt lit 1088).tables.pod 0).2 = none := by
  decide +kernel

/-- A pod's two timers at their moments, with a frame to send, an address of 0, and a failing entry. -/
theorem test_witness_PodTimersExpire :
    (State.reset.lamps.pods[(0 : Fin 12)]).refresh = some 500000 ∧ (State.reset.lamps.pods[(0 : Fin 12)]).report = some 1500000 ∧
      (State.reset.tables.pod 0).2 = some ⟨16, .front⟩ ∧ (∀ x ∈ queueOf 7, x.waitsFor 0 = false) ∧ (queueOf 7).length < 8 ∧
      (State.reset.tables.pod 11).2 = some ⟨0, .front⟩ ∧ ((State.failingAt State.reset 1088).tables.pod 0).2 = none := by
  decide +kernel

/-- A refresh meets a LAMPCMD of its pod waiting behind another frame, and a full queue with none. -/
theorem test_refresh_replaces_or_marks_dirty :
    let waiting := (front fun q => { q with queue := queueOf 1 ++ lampEntry :: queueOf 6 }).updPod 0 fun r => { r with levels := r.levels.set 0 15 }
    let full := front fun q => { q with queue := queueOf 8 }
    (∀ y ∈ queueOf 1, y.waitsFor 0 = false) ∧ lampEntry.waitsFor 0 = true ∧ (∀ x ∈ full.front.queue, x.waitsFor 0 = false) ∧ 8 ≤ full.front.queue.length ∧
      leadsTo (exec (.refreshExpiry 500000 0) waiting) (fun t => t.front.queue.length == 8 && !(t.lamps.pods[(0 : Fin 12)]).dirty &&
        (t.front.queue.getD 1 lampEntry).frame.payload == [0xF0#8, 0#8, 0#8, 0#8]) = true ∧
      leadsTo (exec (.refreshExpiry 500000 0) full) (fun t => t.front == full.front && (t.lamps.pods[(0 : Fin 12)]).dirty) = true := by
  decide +kernel

/-- A lit load bound to pod 0 with its entry read good and failing; the proving delay just reached and just missed. -/
theorem test_witness_ReportTripsAndProves :
    let r : LoadRecord := ⟨15, false, 15, 15, true, some (0, 1), .unknown, .normal, 2, none, some 0⟩
    let v : Vector LoadRecord 32 := State.reset.lamps.loads.set 3 r
    (v[(3 : Fin 32)]).binding = some (0, 1) ∧ (State.reset.tables.load 3).2 = some ⟨some 0, 1, .plain, none, .drop, 2, 83⟩ ∧
      ((State.failingAt State.reset 972).tables.load 3).2 = none ∧
      (([0x02#8] : List Byte).getD 0 0#8).getLsbD (1 : Fin 8).val = true ∧ 0 < r.effective ∧ r.trip = .normal ∧
      State.reset.tables.peekParam .retryLimit ≤ r.retry + 1 ∧ State.reset.tables.peekParam .provingDelay * Config.ms10 ≤ 150000 ∧
      149999 < State.reset.tables.peekParam .provingDelay * Config.ms10 := by
  decide +kernel

/-- A tick of a running flasher above 1, and at 1 in either phase. -/
theorem test_witness_FlasherTickCountsDown :
    ∀ x ∈ [FlasherState.lit, .dark], ∀ n ∈ [1, 2],
      let s : State := { State.reset with flasher := ⟨x, n, 33, .normal, some 7⟩ }
      s.flasher.state ≠ .idle ∧ s.flasher.tick = some 7 ∧ 7 ≤ s.now + 7 ∧ (1 < s.flasher.counter ∨ s.flasher.counter = 1) := by
  decide

theorem test_witness_sampler :
    State.reset.sampler.conversionTimer ≤ 0 + 20000 ∧ (State.reset.tables.descriptor 3).2 = some ⟨1, 0, 0, .above, none, 0⟩ ∧
      ((State.failingAt State.reset 1120).tables.descriptor 0).2 = none ∧
      (State.reset.sampler.descriptors[(0 : Fin 16)]).staleTimer = some 1000000 ∧ State.reset.sampler.gateTimer ≤ 0 + 500000 ∧
      State.reset.gauges.updateTimer ≤ 0 + 100000 ∧ State.reset.ignition = false ∧ (State.driving State.reset).ignition = true := by
  decide +kernel

/-- A sample that fills its window: with a channel to tell, with none, with no change of state, and with a gauge that follows; and one that leaves it unfilled. -/
theorem test_witness_windows :
    let r (held : Nat) : DescriptorRecord := ⟨held, 110 * held, some 4, none, .unknown, false, none⟩
    let e : DescriptorEntry := ⟨4, 120, 15, .below, some 20, 6⟩
    (State.reset.tables.descriptor 4).2 = some e ∧ ((r 3).accept e 110 0).window = some ((r 3).accept e 110 0).held ∧
      ((r 2).accept e 110 0).window ≠ some ((r 2).accept e 110 0).held ∧ (((r 3).accept e 110 0).complete e 4).threshold ≠ (r 3).threshold ∧
      ((({ r 3 with threshold := .active } : DescriptorRecord).accept e 110 0).complete e 4).threshold = .active ∧
      (State.reset.tables.descriptor 2).2 = some ⟨10, 0, 0, .above, none, 2⟩ ∧ (State.reset.tables.gauge 0).2 = some ⟨.thermal, .descriptor 4, 0, 10⟩ := by
  decide +kernel

/-- Section 11.4: the fourth sample of S4 reports E20 CLOSED and gives G0 its target of 59. -/
theorem test_window_of_section_11_4 :
    let t := presentSample (State.reset.updDescriptor 4 fun _ => ⟨3, 332, some 4, none, .unknown, false, none⟩) 4 108
    (t.events.channels[(20 : Fin 32)]).pending = some .closing ∧ (t.gauges.gauges[(0 : Fin 4)]).target = 59 := by
  decide +kernel

/-- An average on either side of each boundary of R134, for both senses and from either state. -/
theorem test_witness_ThresholdHasHysteresis :
    let e (sense : Sense) : DescriptorEntry := ⟨1, 120, 15, sense, none, 0⟩
    let r (sum : Nat) (x : ThresholdState) : DescriptorRecord := ⟨1, sum, some 1, none, x, false, none⟩
    let A (sum : Nat) (x : ThresholdState) : Nat := ((r sum x).sum + 1 / 2) / 1
    (e .above).threshold ≤ 1023 ∧ A 1023 .active ≤ 1023 ∧ (e .above).threshold ≤ A 120 .unknown ∧ A 119 .inactive < (e .above).threshold ∧
      (A 104 .active : Int) < max 0 (((e .above).threshold : Int) - (e .above).hysteresis) ∧
      max 0 (((e .above).threshold : Int) - (e .above).hysteresis) ≤ (A 105 .active : Int) ∧
      A 120 .unknown ≤ (e .below).threshold ∧ (e .below).threshold < A 121 .inactive ∧
      min 1023 ((e .below).threshold + (e .below).hysteresis) < A 136 .active ∧
      A 135 .active ≤ min 1023 ((e .below).threshold + (e .below).hysteresis) := by
  decide

theorem test_witness_CurveIsInterpolated :
    let c : Curve := ⟨[(100, 0), (400, 300), (350, 600), (800, 1000)]⟩
    2 ≤ c.points.length ∧ (∀ q ∈ c.points, q.1 ≤ 1023 ∧ q.2 ≤ 1000) ∧
      (∀ j < 1, ((c.points.getD j (0, 0)).1 < (c.points.getD (j + 1) (0, 0)).1 ∧ (c.points.getD (j + 1) (0, 0)).1 ≤ 400)) := by
  decide

/-- Requests as each service statement takes them, in a state of the engine that takes them. -/
theorem test_witness_requests :
    (∀ payload ∈ ([[1#8], [2#8, 9#8, 0#8, 63#8, 1#8], [3#8, 9#8, 0#8, 63#8, 0#8, 0#8], [4#8, 10#8, 0#8], [5#8, 2#8, 1#8], [6#8, 31#8], [6#8, 0xFF#8],
        [7#8], [8#8, 1#8], [9#8], []] : List (List Byte)),
      (asking payload).Serves .front .serviceRequest ⟨1, 60, 4, payload⟩ ∧ (asking payload).service = .idle) ∧
      decodeRequest [] = none ∧ decodeRequest [9#8] = some .restart ∧ ({ asking [9#8] with service := .restarting } : State).service ≠ .idle := by
  decide +kernel

/-- Payloads of the lengths of R159 and one byte to either side, with the codes 0 and 10. -/
theorem test_request_lengths :
    (∀ x ∈ [(1, 0), (2, 4), (3, 5), (3, 15), (4, 2), (5, 2), (6, 1), (7, 0), (8, 1), (9, 0)],
      (decodeRequest (BitVec.ofNat 8 x.1 :: List.replicate x.2 0#8)).isSome = true ∧
        decodeRequest (BitVec.ofNat 8 x.1 :: List.replicate (x.2 + 1) 0#8) = none ∧
        (x.2 = 0 ∨ decodeRequest (BitVec.ofNat 8 x.1 :: List.replicate (x.2 - 1) 0#8) = none)) ∧
      decodeRequest [0#8] = none ∧ decodeRequest [10#8] = none ∧ 1 ≤ ([0x1234#16] : List Word16).length ∧
      decodeRequest [3#8, 9#8, 1#8, 2#8, 0x12#8, 0x34#8] = some (.writeTable 9#8 258 [0x1234#16]) := by
  decide +kernel

/-- Each object's last index and the one past it, and the object past the last. -/
theorem test_read_state_ranges :
    (∀ x ∈ [(0, 63), (1, 31), (2, 3), (3, 255), (4, 31), (5, 11), (6, 255), (7, 15), (8, 255), (9, 3), (10, 255)],
      (recordOf State.reset x.1 x.2).isSome = true) ∧
      ∀ x ∈ [(0, 64), (1, 32), (2, 4), (4, 32), (5, 12), (7, 16), (9, 4), (11, 0)], recordOf State.reset x.1 x.2 = none := by
  decide +kernel

theorem test_witness_ReadsChangeNothing :
    Area.ofByte 0#8 = some .directory ∧ 122 + 6 - 1 < Area.directory.words ∧ Area.directory.words ≤ 123 + 6 - 1 ∧ Area.ofByte 10#8 = none := by
  decide

/-- A write of one word at the end of its area, and one past it; IGNITION set and clear. -/
theorem test_witness_WriteTableWritesItsWords :
    wordsOf [0#8, 5#8] = some [5#16] ∧ Area.ofByte 9#8 = some .parameters ∧ 63 + [5#16].length ≤ Area.parameters.words ∧
      Area.parameters.words < 64 + [5#16].length ∧ (asking [3#8, 9#8, 0#8, 63#8, 0#8, 5#8]).ignition = false ∧
      (State.driving (asking [3#8, 9#8, 0#8, 63#8, 0#8, 5#8])).ignition = true ∧
      Memory.wf unlistedWord tableWords State.reset.tables.cells = true := by
  decide +kernel

/-- A write of LOAD words resolves the loads and answers DONE; one of an enable word that clears it takes the channel's pending edge. -/
theorem test_write_table_load_and_event :
    leadsTo (exec (.writeTable 0 .front) ((asking [3#8, 4#8, 0#8, 0#8, 0#8, 0x11#8]).updLoad 0 fun r => { r with requested := 9 }))
        (fun t => (t.lamps.loads[(0 : Fin 32)]).effective == 9 && (t.lamps.loads[(0 : Fin 32)]).binding == some (1, 1) && t.front.poolA = .free &&
          (t.front.queue.map (·.frame.payload)).getLast? == some [3#8, 0#8]) = true ∧
      leadsTo (exec (.writeTable 0 .front) ((asking [3#8, 2#8, 0#8, 62#8, 0#8, 0#8]).updChannel 31 fun x => { x with pending := some .closing }))
        (fun t => (t.events.channels[(31 : Fin 32)]).pending.isNone) = true ∧
      Area.ofByte 4#8 = some .load ∧ Area.ofByte 2#8 = some .event ∧ (0#16 : Word16).getLsbD 15 = false := by
  decide +kernel

/-- Loads 31 and 32, and ALL. -/
theorem test_witness_ClearLatchClearsTrips : (31#8 : Byte).toNat < 32 ∧ 32 ≤ (32#8 : Byte).toNat ∧ (32#8 : Byte) ≠ 0xFF#8 := by decide

/-- A store in which one word fails, and one in which none does. -/
theorem test_witness_StoreProgramsTheImage :
    (((State.failingAt (asking [7#8]) 1407).tables.word 1407).fails = true) ∧ (∀ a < tableWords, ((asking [7#8]).tables.word a).fails = false) :=
  ⟨by decide +kernel, fun a _ => by show (fresh (Limp.word .separate a)).fails = false; simp [fresh, StoredWord.fails]⟩

theorem test_witness_LoadLimp_and_Restart :
    (asking [8#8, 1#8]).ignition = false ∧ (State.driving (asking [8#8, 1#8])).ignition = true ∧ 1 < (2#8 : Byte).toNat ∧
      (queueOf 7).length < 8 ∧ 8 ≤ (queueOf 8).length := by
  decide +kernel

/-- A step that changes a word of the store: a disturbance. -/
theorem test_witness_StoreIsWrittenOnlyWhenParked :
    leadsTo (step { State.reset with pending := [.bitsDisturbedInStorage 0 .directory 0 9#16] })
      (fun t => (t.tables.word 0).data != (State.reset.tables.word 0).data) = true := by
  decide +kernel

end Sys2Proof.Machine.Tests
end

section
/-! PROOFS. The event channels: what one level report does (R58 to R61), the debounce of the ignition input (R57), and what the low-supply
hold stops, abandons and keeps (R158, R170, R173). -/

namespace Sys2Proof.Machine.EventChannels

/-! ## One entry of a vector rewritten -/

/-- Rewriting an entry to what it holds changes nothing. -/
theorem upd_of_fixed {α : Type} {n : Nat} {v : Vector α n} {i : Fin n} {f : α → α} (h : f v[i] = v[i]) : upd v i f = v := by
  ext j hj
  rw [upd_getElem]
  split
  · next e => subst e; exact h
  · rfl

/-- Two rewritings of one entry are one. -/
theorem upd_upd {α : Type} {n : Nat} (v : Vector α n) (i : Fin n) (f g : α → α) : upd (upd v i f) i g = upd v i fun x => g (f x) := by
  ext j hj
  simp only [upd_getElem]
  split <;> rfl

/-- A channel rewritten to what it holds leaves the state as it was. -/
theorem updChannel_of_fixed {s : State} {c : Fin 32} {f : Channel → Channel} (h : f s.events.channels[c] = s.events.channels[c]) :
    s.updChannel c f = s := by
  simp only [State.updChannel, upd_of_fixed h]

/-! ## The edge of a report -/

/-- The kind of the edge that a changing report makes (R58). -/
def edgeTo (closed : Bool) : Edge := if closed then .closing else .opening

/-- A report equal to the level makes no edge (R58). -/
theorem edgeOf_levelOf (closed : Bool) : edgeOf (levelOf closed) closed = none := by cases closed <;> rfl

/-- A report that changes the level, other than a first OPEN, makes the edge of its kind (R58, R59). -/
theorem edgeOf_changed {before : ChannelLevel} {closed : Bool} (h : before ≠ levelOf closed) (firstClosed : before = .unknown → closed = true) :
    edgeOf before closed = some (edgeTo closed) := by
  cases before with
  | unknown => rw [firstClosed rfl]; rfl
  | isOpen =>
    cases closed with
    | false => exact absurd rfl h
    | true => rfl
  | isClosed =>
    cases closed with
    | false => rfl
    | true => exact absurd rfl h

/-- An edge is accepted by an enabled entry whose edge select takes its kind (R60). -/
theorem accepts_edgeTo_iff (e : EventEntry) (closed : Bool) :
    e.accepts (edgeTo closed) = true ↔
      e.enable = true ∧ (e.select = .both ∨ (closed = true ∧ e.select = .closing) ∨ (closed = false ∧ e.select = .opening)) := by
  simp only [EventEntry.accepts, edgeTo, Bool.and_eq_true]
  refine and_congr_right fun _ => ?_
  cases e.select <;> cases closed <;> simp

/-! ## One level report -/

/-- A report that makes no edge gives the channel its level and reads no entry (R58, R59). -/
theorem reportLevel_noEdge {s : State} {c : Fin 32} {closed : Bool} (h : edgeOf (s.events.channels[c]).level closed = none) :
    reportLevel s c closed = s.updChannel c fun x => { x with level := levelOf closed } := by
  simp only [reportLevel, EventBlock.report, h]
  rfl

/-- A report equal to the level does nothing (R58). -/
theorem reportLevel_same {s : State} {c : Fin 32} {closed : Bool} (h : (s.events.channels[c]).level = levelOf closed) :
    reportLevel s c closed = s := by
  rw [reportLevel_noEdge (h ▸ edgeOf_levelOf closed)]
  exact updChannel_of_fixed (by rw [← h])

/-- An edge whose entry fails to read moves the level alone, and the store as the read leaves it (R60). -/
theorem reportLevel_failed {s : State} {c : Fin 32} {closed : Bool} {edge : Edge}
    (h : edgeOf (s.events.channels[c]).level closed = some edge) (k : (s.tables.event c).2 = none) :
    reportLevel s c closed = (s.updChannel c fun x => { x with level := levelOf closed }).withTables (s.tables.event c).1 := by
  simp only [reportLevel, EventBlock.report, h, k]
  rfl

/-- An edge that its entry does not accept moves the level alone (R60). -/
theorem reportLevel_refused {s : State} {c : Fin 32} {closed : Bool} {edge : Edge} {e : EventEntry}
    (h : edgeOf (s.events.channels[c]).level closed = some edge) (k : (s.tables.event c).2 = some e) (r : ¬e.accepts edge = true) :
    reportLevel s c closed = s.updChannel c fun x => { x with level := levelOf closed } := by
  simp only [reportLevel, EventBlock.report, h, k, TableStore.event_some k, if_neg r]
  rfl

/-- An accepted edge is taken by the event block of the new level (R61). -/
theorem reportLevel_accepted {s : State} {c : Fin 32} {closed : Bool} {edge : Edge} {e : EventEntry}
    (h : edgeOf (s.events.channels[c]).level closed = some edge) (k : (s.tables.event c).2 = some e) (a : e.accepts edge = true) :
    reportLevel s c closed =
      { s with events := (s.updChannel c fun x => { x with level := levelOf closed }).events.acceptEdge c edge } := by
  simp only [reportLevel, EventBlock.report, h, k, TableStore.event_some k, if_pos a]
  rfl

/-- An edge accepted after a change of level: both fields of the channel are rewritten, and EDGE-LOST counts when the edge replaces one (R61). -/
theorem acceptEdge_after_level (s : State) (c : Fin 32) (level : ChannelLevel) (edge : Edge) :
    (s.updChannel c fun x => { x with level := level }).events.acceptEdge c edge =
      { (s.updChannel c fun x => { x with level := level, pending := some edge }).events with
        edgeLost := if (s.events.channels[c]).pending = none then s.events.edgeLost else s.events.edgeLost.bump, choiceMade := false } := by
  have replaced : ((upd s.events.channels c fun x => { x with level := level })[c]).pending = (s.events.channels[c]).pending := by
    simp
  simp only [EventBlock.acceptEdge, State.updChannel_events, upd_upd, replaced]
  cases (s.events.channels[c]).pending <;> rfl

/-- Settles O26, by the edge that the report makes and what its EVENT entry reads as. -/
theorem levelReportMakesEdges : Obligations.LevelReportMakesEdges := by
  intro s c closed
  refine ⟨fun same => reportLevel_same same, fun unknown isOpen => ?_, fun differs firstClosed => ?_⟩
  · subst isOpen
    exact reportLevel_noEdge (unknown ▸ rfl)
  · have edge := edgeOf_changed differs firstClosed
    refine ⟨fun e read takes => ?_, fun e read refuses => ?_, fun read => reportLevel_failed edge read⟩
    · rw [reportLevel_accepted edge read ((accepts_edgeTo_iff e closed).mpr takes), acceptEdge_after_level]
      rfl
    · exact reportLevel_refused edge read fun a => refuses ((accepts_edgeTo_iff e closed).mp a)

/-! ## The ignition input -/

/-- A timer is due when it runs and its moment has come (log 3). -/
theorem due_iff {timer : Option Time} {now : Time} : due timer now = true ↔ Due timer now := by
  cases timer with
  | none => simp [due, Due]
  | some t => simp [due, Due]

/-- A change of the input while the blocks run starts the debounce timer anew (R57). -/
theorem execIgnitionInputChange_changed (dt : Time) {on : Bool} {s : State} (run : s.power = .running) (h : s.events.rawIgnition ≠ on) :
    execIgnitionInputChange dt on s =
      .next { s.elapse dt with events := { s.events with rawIgnition := on, debounceTimer := some (s.now + dt + Config.ms20) } } := by
  simp only [execIgnitionInputChange, State.elapse, h, run, if_true, if_false]

/-- In a hold the input is followed and the debounce timer stands (log 24). -/
theorem execIgnitionInputChange_held (dt : Time) (on : Bool) {s : State} (held : s.power ≠ .running) :
    execIgnitionInputChange dt on s = .next { s.elapse dt with events := { s.events with rawIgnition := on } } := by
  by_cases h : s.events.rawIgnition = on
  · subst h
    simp only [execIgnitionInputChange, State.elapse, if_true]
  · simp only [execIgnitionInputChange, State.elapse, h, held, if_false]

/-- The debounce timer at its moment is handled by `expireDebounce`. -/
theorem execIgnitionDebounceExpiry_due {dt : Time} {s : State} (run : s.power = .running) (h : Due s.events.debounceTimer (s.now + dt)) :
    execIgnitionDebounceExpiry dt s = .next (expireDebounce (s.elapse dt)) := by
  simp only [execIgnitionDebounceExpiry, live_running run, State.elapse_events, State.elapse_now, due_iff.mpr h, if_true]

/-- Settles O27, by whether the debounced level is already the raw one. -/
theorem ignitionIsDebounced : Obligations.IgnitionIsDebounced := by
  refine ⟨fun dt on s run changed => execIgnitionInputChange_changed dt run changed, fun dt s run expired => ?_⟩
  refine (execIgnitionDebounceExpiry_due run expired).trans ?_
  by_cases same : s.events.debounced = some s.events.rawIgnition
  · simp only [expireDebounce, State.elapse, same, if_true]
  · simp only [expireDebounce, State.elapse, same, if_false]

/-! ## The low-supply hold -/

/-- Where no STORE is in flight there is none to abandon. -/
theorem abandonStore_none {s : State} (h : ∀ r p i, s.service ≠ .storing r p i) : abandonStore s = s := by
  unfold abandonStore
  split
  · next e => exact absurd e (h _ _ _)
  · rfl
  · rfl

/-- A STORE in flight is abandoned: the engine is idle and the NV image is the next free one (log 9). -/
theorem abandonStore_storing {s : State} {r : LoomAddr} {p : PortId} {i : List (Nat × Word16)} (h : s.service = .storing r p i) :
    abandonStore s = { s with service := .idle, nv := brokenImage s.draws, draws := s.draws + 1 } := by
  simp only [abandonStore, h]

/-- An abandoned STORE touches the service engine, the NV image and the count of free values. -/
theorem abandonStore_eq (s : State) :
    abandonStore s = { s with service := (abandonStore s).service, nv := (abandonStore s).nv, draws := (abandonStore s).draws } := by
  cases h : s.service with
  | storing r p i => simp only [abandonStore_storing h]
  | idle => rw [abandonStore_none (by simp [h])]
  | restarting => rw [abandonStore_none (by simp [h])]

/-- A broken image reads as its free words (log 9). -/
theorem nvWord_brokenImage {s : State} {draw a : Nat} (h : s.nv = brokenImage draw) (inside : a < nvWords) :
    s.nvWord a = Config.nvAfterBrokenProgramming draw a := by
  rw [State.nvWord, h, brokenImage, Memory.read_ofFn, if_pos inside]

/-- In a hold that has kept the store, or one that cut its loading short, the fall of the feed ends the keeping (R173, log 10). -/
theorem execFeedFellBelow2V5_retained (dt : Time) {s : State} (h : s.power = .held ∨ s.power = .unloaded) :
    execFeedFellBelow2V5 dt s =
      .next
        { s.elapse dt with
          power := .lost, tables := lostTables s.tables s.draws, straps := Config.lostStraps s.draws, draws := s.draws + 1 } := by
  simp only [execFeedFellBelow2V5, State.elapse, h, if_true]

/-- Out of the running state a byte's edge moves the mark of its wire alone (log 18). -/
theorem execByteReceived_held (dt : Time) (p : PortId) (edge : ByteEdge) {s : State} (held : s.power ≠ .running) :
    execByteReceived dt p edge s = .next ((s.elapse dt).setPort p { s.port p with byteOnWire := onWireAfter edge }) := by
  simp only [execByteReceived, State.elapse_power, if_neg held, State.port_elapse]

/-- The commands of the blocks: all but the events of the feed, of storage, of the ignition pin and of a loom wire (R173, log 24). -/
def OfBlocks : Instr → Prop
  | .powerOn .. | .brownOut .. | .feedFellBelow2V5 .. | .bitsDisturbedInStorage .. | .ignitionInputChange .. | .byteReceived .. => False
  | _ => True

/-- A command of the blocks is a step of the blocks. -/
theorem exec_ofBlocks_live {c : Instr} (h : OfBlocks c) : ∃ f, ∀ s, exec c s = live c.elapsed s f := by
  cases c with
  | powerOn | brownOut | feedFellBelow2V5 | bitsDisturbedInStorage | ignitionInputChange | byteReceived => exact h.elim
  | _ => dsimp only [exec, Instr.elapsed]; exact ⟨_, fun _ => rfl⟩

/-- In a hold a command of the blocks moves the clock alone (R173). -/
theorem exec_ofBlocks_held {c : Instr} {s : State} (h : OfBlocks c) (held : s.power ≠ .running) :
    exec c s = .next (s.elapse c.elapsed) := by
  obtain ⟨f, e⟩ := exec_ofBlocks_live h
  rw [e, live_held held]

/-- LOW_SUPPLY_HOLD while the part runs (R158, R173): the hold begins with a STORE in flight abandoned. -/
theorem execLowSupplyHold_running (dt : Time) {s : State} (run : s.power = .running) :
    execLowSupplyHold dt s = .next { abandonStore (s.elapse dt) with power := .held } := live_running run

/-- Settles O6: the two events of the feed by their own equations, and every other command by whether it is one of the blocks'. -/
theorem holdStopsTheBlocks : Obligations.HoldStopsTheBlocks := by
  refine ⟨fun dt s run => ⟨_, execLowSupplyHold_running dt run, ?_, fun noStore => ?_, fun ⟨r, p, i, storing⟩ => ?_⟩,
    fun dt s retained => ⟨_, execFeedFellBelow2V5_retained dt retained, rfl, lostTables_parityCount _ _⟩, fun c s held => ?_⟩
  · rw [abandonStore_eq (s.elapse dt)]
    rfl
  · rw [abandonStore_none (s := s.elapse dt) noStore]
    exact ⟨rfl, rfl, rfl⟩
  · rw [abandonStore_storing (s := s.elapse dt) storing]
    refine ⟨rfl, fun a inside => nvWord_brokenImage ?_ inside⟩
    simp only [State.elapse_draws]
  · cases c with
    | powerOn | brownOut | feedFellBelow2V5 | bitsDisturbedInStorage => trivial
    | ignitionInputChange dt on => exact execIgnitionInputChange_held dt on held
    | byteReceived dt p edge => exact execByteReceived_held dt p edge held
    | _ => exact exec_ofBlocks_held trivial held

end Sys2Proof.Machine.EventChannels
end

section
/-! PROOFS. The chain slots: how slots, wait timers and in-service marks stay in step (R71) through takes, walks, waits and resets. -/

namespace Sys2Proof.Machine.ChainSlots

/-! ## States with the same slots and marks -/

/-- The chain slots and every in-service mark stand. -/
structure SameSlots (s u : State) : Prop where
  slots : u.engine.slots = s.engine.slots
  marks : ∀ c : Fin 32, (u.events.channels[c]).inService = (s.events.channels[c]).inService

theorem SameSlots.refl (s : State) : SameSlots s s := ⟨rfl, fun _ => rfl⟩

theorem SameSlots.trans {s u v : State} (h : SameSlots s u) (k : SameSlots u v) : SameSlots s v :=
  ⟨k.slots.trans h.slots, fun c => (k.marks c).trans (h.marks c)⟩

/-- Where the engine and the event block stand, so do slots and marks. -/
theorem SameSlots.of_blocks {s u : State} (engine : u.engine = s.engine) (events : u.events = s.events) : SameSlots s u :=
  ⟨by rw [engine], fun _ => by rw [events]⟩

/-- R71 speaks of slots and marks alone. -/
theorem SameSlots.slotsWf {s u : State} (h : SameSlots s u) (w : s.SlotsWf) : u.SlotsWf := by
  obtain ⟨slots, marks⟩ := h
  simpa only [State.SlotsWf, slots, marks] using w

theorem elapse_sameSlots (dt : Time) (s : State) : SameSlots s (s.elapse dt) := .of_blocks rfl rfl

theorem withTables_sameSlots (s : State) (t : TableStore) : SameSlots s (s.withTables t) := .of_blocks rfl rfl

theorem setPort_sameSlots (s : State) (p : PortId) (q : Port) : SameSlots s (s.setPort p q) :=
  .of_blocks (s.setPort_engine p q) (s.setPort_events p q)

/-- An update of a channel that keeps its mark. -/
theorem updChannel_sameSlots (s : State) (c : Fin 32) {f : Channel → Channel} (h : ∀ x, (f x).inService = x.inService) :
    SameSlots s (s.updChannel c f) := by
  refine ⟨rfl, fun d => ?_⟩
  simp only [State.updChannel_events, upd_get]
  split
  · exact h _
  · rfl

theorem sameSlots_of_events {s u : State} (h : TouchesEvents s u) : SameSlots s u := by
  obtain ⟨t, e, rfl, _, reported, _⟩ := h
  exact ⟨rfl, fun c => (reported c).2⟩

theorem sameSlots_of_samples {s u : State} (h : TouchesSamples s u) : SameSlots s u := by
  obtain ⟨t, e, v, g, rfl, _, ⟨reported, _⟩, _⟩ := h
  exact ⟨rfl, fun c => (reported c).2⟩

theorem sameSlots_of_route {s u : State} (h : TouchesRoute s u) : SameSlots s u := by
  obtain ⟨t, a, x, b, y, r, e, l, d, g, rfl, _, _, ⟨reported, _⟩, _⟩ := h
  exact ⟨rfl, fun c => (reported c).2⟩

theorem sameSlots_of_lamps {s u : State} (h : TouchesLamps s u) : SameSlots s u := by
  obtain ⟨t, a, b, l, rfl, _⟩ := h
  exact .of_blocks rfl rfl

theorem sameSlots_of_phase {s u : State} (h : TouchesPhase s u) : SameSlots s u := by
  obtain ⟨t, a, b, l, f, rfl, _⟩ := h
  exact .of_blocks rfl rfl

theorem sameSlots_of_targets {s u : State} (h : TouchesTargets s u) : SameSlots s u := by
  obtain ⟨t, g, rfl, _⟩ := h
  exact .of_blocks rfl rfl

theorem sameSlots_of_gauges {s u : State} (h : TouchesGauges s u) : SameSlots s u := by
  obtain ⟨t, g, rfl, _⟩ := h
  exact .of_blocks rfl rfl

/-! ## A chain let go, and a chain held -/

/-- Only a FREE slot holds no chain (R71). -/
theorem heldFor_eq_none_iff (k : Slot) : k.heldFor = none ↔ k.state = .free := by
  unfold Slot.heldFor
  cases k.state <;> simp

/-- A slot holds a chain of a channel when it is not FREE and names it (R71). -/
theorem heldFor_eq_some_iff (k : Slot) (c : Fin 32) : k.heldFor = some c ↔ k.state ≠ .free ∧ k.channel = c := by
  unfold Slot.heldFor
  cases k.state <;> simp

/-- A channel's chain let go (R71, R74, R89): every slot that held it is FREE, and the channel's mark is clear. -/
theorem slotsWf_of_released {s u : State} {c : Fin 32} (w : s.SlotsWf)
    (slots : ∀ k : Fin 4, u.engine.slots[k] = if (s.engine.slots[k]).heldFor = some c then (s.engine.slots[k]).freed else s.engine.slots[k])
    (marks : ∀ d : Fin 32, (u.events.channels[d]).inService = if d = c then false else (s.events.channels[d]).inService) : u.SlotsWf := by
  obtain ⟨served, single, timed⟩ := w
  have held (k : Fin 4) : (u.engine.slots[k]).heldFor =
      if (s.engine.slots[k]).heldFor = some c then none else (s.engine.slots[k]).heldFor := by
    rw [slots]
    split <;> rfl
  refine ⟨fun d => ?_, fun j k same some => ?_, fun k => ?_⟩
  · simp only [held, marks]
    by_cases e : d = c
    · subst e
      simp
    · rw [if_neg e, served]
      refine exists_congr fun k => ?_
      split
      · next h => rw [h, Option.some_inj]; exact iff_of_false (Ne.symm e) nofun
      · rfl
  · rw [held] at same some
    rw [held] at same
    by_cases hj : (s.engine.slots[j]).heldFor = Option.some c
    · rw [if_pos hj] at some
      exact absurd rfl some
    · rw [if_neg hj] at same some
      by_cases hk : (s.engine.slots[k]).heldFor = Option.some c
      · rw [if_pos hk] at same
        exact absurd same some
      · rw [if_neg hk] at same
        exact single j k same some
  · rw [slots]
    split
    · simp [Slot.freed]
    · exact timed k

/-- A channel's chain put into slot `k` (R71, R87): no other slot holds a chain of the channel, and the slot held that chain or none. -/
theorem slotsWf_of_suspended {s u : State} {c : Fin 32} {k : Fin 4} {next : Option (Fin 256)} {t : Time} (w : s.SlotsWf)
    (own : ∀ d, (s.engine.slots[k]).heldFor = some d → d = c) (alone : ∀ j : Fin 4, (s.engine.slots[j]).heldFor = some c → j = k)
    (slots : ∀ j : Fin 4, u.engine.slots[j] = if k = j then ⟨.suspended, c, next, some t⟩ else s.engine.slots[j])
    (marks : ∀ d : Fin 32, (u.events.channels[d]).inService = if d = c then true else (s.events.channels[d]).inService) : u.SlotsWf := by
  obtain ⟨served, single, timed⟩ := w
  have held (j : Fin 4) : (u.engine.slots[j]).heldFor = if k = j then some c else (s.engine.slots[j]).heldFor := by
    rw [slots]
    split <;> rfl
  refine ⟨fun d => ?_, fun i j same some => ?_, fun j => ?_⟩
  · simp only [held, marks]
    by_cases e : d = c
    · subst e
      simp only [if_true, true_iff]
      exact ⟨k, by simp⟩
    · rw [if_neg e, served]
      refine exists_congr fun j => ?_
      split
      · next h =>
        subst h
        exact ⟨fun a => absurd (own d a) e, fun a => absurd (Option.some.inj a).symm e⟩
      · rfl
  · rw [held] at same some
    rw [held] at same
    by_cases hi : k = i <;> by_cases hj : k = j
    · exact hi.symm.trans hj
    · rw [if_pos hi, if_neg hj] at same
      exact absurd (alone j same.symm).symm hj
    · rw [if_neg hi, if_pos hj] at same
      exact absurd (alone i same).symm hi
    · rw [if_neg hi] at some same
      rw [if_neg hj] at same
      exact single i j same some
  · rw [slots]
    split
    · simp
    · exact timed j

/-- Every slot FREE with its timer stopped, and no channel in service, as a reset leaves them (R70). -/
theorem slotsWf_of_clear {u : State} (slots : ∀ k : Fin 4, u.engine.slots[k] = .afterReset)
    (marks : ∀ d : Fin 32, (u.events.channels[d]).inService = false) : u.SlotsWf := by
  have free (k : Fin 4) : (u.engine.slots[k]).heldFor = none := by rw [slots]; rfl
  refine ⟨fun d => ?_, fun j _ _ some => absurd (free j) some, fun k => ?_⟩
  · simp only [free, marks]
    exact iff_of_false nofun nofun
  · rw [slots]
    simp [Slot.afterReset]

/-! ## The walk -/

/-- A chain's hold on the engine as a walk finds it: the slot it was resumed from holds it, and a chain begun at a take is in no slot (R73, R87). -/
def Fits (ch : Chain) (s : State) : Prop :=
  match ch.slot with
  | some k => (s.engine.slots[k]).heldFor = some ch.channel
  | none => (s.events.channels[ch.channel]).inService = false

/-- A state of R71 in which a chain can be walked. -/
abbrev Ready (ch : Chain) (s : State) : Prop := s.SlotsWf ∧ Fits ch s

theorem SameSlots.ready {ch : Chain} {s u : State} (h : SameSlots s u) (r : Ready ch s) : Ready ch u := by
  refine ⟨h.slotsWf r.1, ?_⟩
  obtain ⟨slots, marks⟩ := h
  simpa only [Fits, slots, marks] using r.2

/-- A channel's mark after the mark of one is rewritten. -/
theorem setInService_inService (s : State) (c d : Fin 32) (b : Bool) :
    ((s.setInService c b).events.channels[d]).inService = if d = c then b else (s.events.channels[d]).inService := by
  simp only [State.setInService, State.updChannel_events, upd_get, eq_comm (a := c)]
  split <;> rfl

/-- No second slot holds a channel's chain (R71). -/
theorem heldFor_unique {s : State} (w : s.SlotsWf) {k j : Fin 4} {c : Fin 32} (h : (s.engine.slots[k]).heldFor = some c) :
    (s.engine.slots[j]).heldFor = some c ↔ k = j := by
  refine ⟨fun a => w.2.1 k j (h.trans a.symm) (h ▸ nofun), fun e => e ▸ h⟩

/-- The end of a chain keeps R71. -/
theorem endChain_slotsWf {ch : Chain} {s : State} (r : Ready ch s) : (endChain ch s).SlotsWf := by
  obtain ⟨c, slot⟩ := ch
  obtain ⟨w, fits⟩ := r
  cases slot with
  | none => exact w
  | some k =>
    refine slotsWf_of_released (c := c) w (fun j => ?_) fun d => setInService_inService _ c d false
    simp only [heldFor_unique w fits]
    exact upd_get _ _ _ _

/-- A walk fault keeps R71 (R79). -/
theorem faultChain_slotsWf {ch : Chain} {s : State} (r : Ready ch s) : (faultChain ch s).SlotsWf :=
  endChain_slotsWf (SameSlots.ready ⟨rfl, fun _ => rfl⟩ r)

/-- The lowest slot in a state is in that state. -/
theorem lowestSlot_state {s : State} {x : SlotState} {k : Fin 4} (h : lowestSlot s x = some k) : (s.engine.slots[k]).state = x := by
  simpa using List.find?_some h

/-- A suspension in the slot available keeps R71 (R87). -/
theorem suspendChain_slotsWf {ch : Chain} {s : State} {k : Fin 4} {next : Option (Fin 256)} {wait : Nat} (r : Ready ch s)
    (available : availableSlot ch s = some k) : (suspendChain ch k next wait s).SlotsWf := by
  obtain ⟨c, slot⟩ := ch
  obtain ⟨w, fits⟩ := r
  refine slotsWf_of_suspended (c := c) (k := k) (next := next) (t := s.now + wait * Config.ms100) w ?_ ?_
    (fun j => upd_get _ _ _ _) fun d => setInService_inService _ c d true
  · intro d held
    cases slot with
    | some k' =>
      obtain rfl := Option.some.inj available
      exact Option.some.inj (held.symm.trans fits)
    | none =>
      have free := (heldFor_eq_none_iff _).mpr (lowestSlot_state available)
      rw [free] at held
      cases held
  · intro j held
    cases slot with
    | some k' =>
      obtain rfl := Option.some.inj available
      exact ((heldFor_unique w fits).mp held).symm
    | none =>
      have marked := (w.1 c).mpr ⟨j, held⟩
      rw [show (s.events.channels[c]).inService = false from fits] at marked
      cases marked

/-- No operation moves a slot or a mark of service (R81 to R86). -/
theorem perform_sameSlots (op : ActionOp) (s : State) : SameSlots s (perform op s) := by
  cases op with
  | mask c m => exact updChannel_sameSlots s c fun _ => rfl
  | _ => exact ⟨rfl, fun _ => rfl⟩

/-- A walk keeps R71, whatever its chain. -/
theorem walk_slotsWf (ch : Chain) : ∀ (n : Nat) (i : Fin 256) (s : State), Ready ch s → (walk ch n i s).SlotsWf := by
  intro n
  induction n with
  | zero => intro i s r; exact faultChain_slotsWf r
  | succ n ih =>
    intro i s r
    have read := (withTables_sameSlots s (s.tables.action i).1).ready r
    simp only [walk]
    split
    · exact endChain_slotsWf read
    · next e _ =>
      split
      · split
        · next k available =>
          split
          · exact suspendChain_slotsWf read available
          · exact suspendChain_slotsWf read available
          · exact faultChain_slotsWf read
        · have skipped := SameSlots.ready ⟨rfl, fun _ => rfl⟩ read
          split
          · exact endChain_slotsWf skipped
          · exact ih _ _ skipped
          · exact faultChain_slotsWf skipped
      · have performed := (perform_sameSlots e.op _).ready read
        split
        · exact endChain_slotsWf performed
        · exact ih _ _ performed
        · exact faultChain_slotsWf performed

/-- What a walk hands to the other blocks moves no slot (R76). -/
theorem commitGroup_sameSlots (before s : State) : SameSlots s (commitGroup before s) := by
  obtain ⟨t, a, r, l, f, e, _⟩ := commitGroup_touches before s
  rw [e]
  exact .of_blocks rfl rfl

theorem callChoice_sameSlots (s : State) : SameSlots s s.callChoice := ⟨rfl, fun _ => rfl⟩

/-- A whole walk keeps R71. -/
theorem runWalk_slotsWf {ch : Chain} {i : Fin 256} {s : State} (r : Ready ch s) : (runWalk ch i s).SlotsWf :=
  ((commitGroup_sameSlots _ _).trans (callChoice_sameSlots _)).slotsWf (walk_slotsWf ch 32 i s r)

/-- A resumption keeps R71 (R89): a DUE slot holds the chain resumed. -/
theorem resumeSlot_slotsWf {s : State} {k : Fin 4} (w : s.SlotsWf) (due : (s.engine.slots[k]).state = .due) : (resumeSlot s k).SlotsWf := by
  have ready : Ready ⟨(s.engine.slots[k]).channel, some k⟩ s := ⟨w, (heldFor_eq_some_iff _ _).mpr ⟨by rw [due]; nofun, rfl⟩⟩
  unfold resumeSlot
  simp only
  split
  · exact (callChoice_sameSlots _).slotsWf (endChain_slotsWf ready)
  · exact runWalk_slotsWf ready

/-! ## The take -/

/-- Entries rewritten one after another: each named is rewritten once, where a second rewriting adds nothing. -/
theorem foldl_upd_get {α : Type} {n : Nat} {f : α → α} (idem : ∀ x, f (f x) = f x) (j : Fin n) :
    ∀ (l : List (Fin n)) (v : Vector α n), (l.foldl (fun v i => upd v i f) v)[j] = if j ∈ l then f v[j] else v[j] := by
  intro l
  induction l with
  | nil => intro v; rfl
  | cons i l ih =>
    intro v
    rw [List.foldl_cons, ih, upd_get]
    by_cases e : i = j
    · subst e
      simp [idem]
    · simp [e, Ne.symm e]

/-- A slot as a cancellation of a channel's chain leaves it (R74). -/
def cancelled (c : Fin 32) (k : Slot) : Slot := if k.heldFor = some c then k.freed else k

/-- A cancelled slot holds no chain of the channel, so that a second cancellation leaves it. -/
theorem cancelled_cancelled (c : Fin 32) (k : Slot) : cancelled c (cancelled c k) = cancelled c k := by
  by_cases h : k.heldFor = some c
  · have free : (cancelled c k).heldFor = none := by rw [cancelled, if_pos h]; rfl
    rw [cancelled, if_neg (by rw [free]; nofun)]
  · rw [cancelled, if_neg (by rwa [cancelled, if_neg h])]

/-- A cancellation looks at each slot in turn (R74). -/
theorem cancelChain_eq (s : State) (c : Fin 32) :
    cancelChain s c =
      ({ s with engine := { s.engine with slots := (List.finRange 4).foldl (fun v k => upd v k (cancelled c)) s.engine.slots } } : State).setInService
        c false := by
  have step (l : List (Fin 4)) (s : State) :
      l.foldl (fun s k => if (s.engine.slots[k]).state ≠ .free ∧ (s.engine.slots[k]).channel = c then s.updSlot k Slot.freed else s) s =
        { s with engine := { s.engine with slots := l.foldl (fun v k => upd v k (cancelled c)) s.engine.slots } } := by
    induction l generalizing s with
    | nil => rfl
    | cons k l ih =>
      have one : (if (s.engine.slots[k]).state ≠ .free ∧ (s.engine.slots[k]).channel = c then s.updSlot k Slot.freed else s) =
          s.updSlot k (cancelled c) := by
        split
        · next h => simp only [State.updSlot, upd, cancelled, if_pos ((heldFor_eq_some_iff _ _).mpr h)]
        · next h =>
          have stands : upd s.engine.slots k (cancelled c) = s.engine.slots :=
            EventChannels.upd_of_fixed (if_neg fun held => h ((heldFor_eq_some_iff _ _).mp held))
          rw [State.updSlot, stands]
      rw [List.foldl_cons, List.foldl_cons, one, ih]
      rfl
  rw [cancelChain, step]

/-- A cancellation keeps R71 and leaves the channel out of service (R74). -/
theorem cancelChain_ready {s : State} (w : s.SlotsWf) (c : Fin 32) : Ready ⟨c, none⟩ (cancelChain s c) := by
  rw [cancelChain_eq]
  refine ⟨slotsWf_of_released (c := c) w (fun k => ?_) fun d => setInService_inService _ c d false, ?_⟩
  · exact (foldl_upd_get (cancelled_cancelled c) k _ _).trans (if_pos (List.mem_finRange k))
  · exact (setInService_inService _ c c false).trans (if_pos rfl)

/-- A take keeps R71: its channel's chain is cancelled first, so that its walk begins with the channel out of service (R73, R74). -/
theorem takeChannel_slotsWf {s : State} (w : s.SlotsWf) (c : Fin 32) (e : EventEntry) (edge : Edge) : (takeChannel s c e edge).SlotsWf := by
  have cleared : SameSlots s (s.updChannel c fun x => { x with pending := none }) := updChannel_sameSlots s c fun _ => rfl
  have ready : Ready ⟨c, none⟩
      (if (s.events.channels[c]).inService = true then cancelChain (s.updChannel c fun x => { x with pending := none }) c
        else s.updChannel c fun x => { x with pending := none }) := by
    split
    · exact cancelChain_ready (cleared.slotsWf w) c
    · next out => exact ⟨cleared.slotsWf w, (cleared.marks c).trans (Bool.eq_false_iff.mpr out)⟩
  unfold takeChannel
  simp only
  split
  · exact runWalk_slotsWf ready
  · exact (callChoice_sameSlots _).slotsWf ready.1

/-- A choice keeps R71, whichever channels it looks at (R72). -/
theorem chooseFrom_slotsWf : ∀ (l : List (Fin 32)) (s : State), s.SlotsWf → (chooseFrom l s).SlotsWf := by
  intro l
  induction l with
  | nil => intro s w; exact w
  | cons c l ih =>
    intro s w
    have read := (withTables_sameSlots s (s.tables.event c).1).slotsWf w
    simp only [chooseFrom]
    split
    · exact ih s w
    · split
      · exact ih s w
      · split
        · exact ih _ ((updChannel_sameSlots _ c (f := fun x => { x with pending := none }) fun _ => rfl).slotsWf read)
        · split
          · exact takeChannel_slotsWf read _ _ _
          · exact ih _ read

/-! ## The waits -/

/-- The slots whose waits are over become DUE with their timers stopped, and hold their chains on (R71, R89). -/
theorem expire_slotsWf {s : State} (w : s.SlotsWf) (now : Time) :
    ({ s with engine := { s.engine with slots := s.engine.slots.map (Slot.expire now) } } : State).SlotsWf := by
  have held (x : Slot) : (x.expire now).heldFor = x.heldFor := by
    by_cases ended : x.waitOver now = true
    · have suspended : x.state = .suspended := by
        simp only [Slot.waitOver, Bool.and_eq_true, beq_iff_eq] at ended
        exact ended.1
      rw [Slot.expire_over ended]
      simp only [Slot.heldFor, suspended]
    · rw [Slot.expire_not (Bool.eq_false_iff.mpr ended)]
  have timed (x : Slot) (t : x.timer.isSome = true ↔ x.state = .suspended) :
      (x.expire now).timer.isSome = true ↔ (x.expire now).state = .suspended := by
    by_cases ended : x.waitOver now = true
    · rw [Slot.expire_over ended]
      simp
    · rwa [Slot.expire_not (Bool.eq_false_iff.mpr ended)]
  have entry (k : Fin 4) : (s.engine.slots.map (Slot.expire now))[k] = (s.engine.slots[k]).expire now := by simp
  obtain ⟨served, single, timers⟩ := w
  refine ⟨fun c => ?_, fun j k => ?_, fun k => ?_⟩
  · simp only [entry, held]
    exact served c
  · simp only [entry, held]
    exact single j k
  · simp only [entry]
    exact timed _ (timers k)

/-! ## The resets -/

theorem setUpChannel_unmarked (p : TableStore × Vector Channel 32) (c : Fin 32) (h : ∀ d : Fin 32, (p.2[d]).inService = false) (d : Fin 32) :
    ((setUpChannel p c).2[d]).inService = false := by
  simp only [setUpChannel, upd_get]
  split
  · rfl
  · exact h d

/-- Every reset meets R71: the slots are FREE and no channel is in service (R55, R70). -/
theorem resetBlocks_slotsWf (keep : Bool) (s : State) : (resetBlocks keep s).SlotsWf := by
  obtain ⟨_, _, routes, _⟩ := resetRoutes_touches (clearBlocks keep s)
  obtain ⟨_, _, sampler, _⟩ := resetSampler_touches (resetEvents (resetRoutes (clearBlocks keep s)))
  have late : SameSlots (resetEvents (resetRoutes (clearBlocks keep s))) (resetBlocks keep s) := by
    refine .trans ?_ (sameSlots_of_lamps (resetLamps_touches _))
    rw [sampler]
    exact .of_blocks rfl rfl
  refine late.slotsWf (slotsWf_of_clear (fun k => ?_) ?_)
  · show ((resetRoutes (clearBlocks keep s)).engine.slots[k]) = _
    rw [routes]
    simp [clearBlocks, ActionEngine.afterReset]
  · refine foldl_rel (R := fun p q : TableStore × Vector Channel 32 =>
      (∀ d : Fin 32, (p.2[d]).inService = false) → ∀ d : Fin 32, (q.2[d]).inService = false) (fun _ h => h) (fun h k a => k (h a))
      setUpChannel_unmarked (List.finRange 32) _ fun d => ?_
    rw [routes]
    simp [clearBlocks, Channel.afterReset]

/-! ## The commands that move no slot -/

/-- What a command answers, if it answers a state, has the slots and marks the command found. -/
abbrev LeavesSlots (s : State) (r : Result) : Prop := ∀ t, r = .next t → SameSlots s t

/-- A step of the blocks whose meaning moves no slot. -/
theorem live_leavesSlots {dt : Time} {s : State} {f : State → State} (h : ∀ u, SameSlots u (f u)) : LeavesSlots s (live dt s f) := by
  intro t e
  cases e
  split
  · exact (elapse_sameSlots dt s).trans (h _)
  · exact elapse_sameSlots dt s

theorem releasePool_sameSlots (s : State) (p : PortId) : SameSlots s (s.releasePool p) := setPort_sameSlots s p _

theorem answer_sameSlots (s : State) (p : PortId) (f : Frame) (status : Status) (data : List Byte) : SameSlots s (answer s p f status data) :=
  setPort_sameSlots s p _

/-- A request taken moves no slot where its performing moves none (R159). -/
theorem unlessBusy_sameSlots {s : State} {p : PortId} {f : Frame} {g : State → State} (h : SameSlots s (g s)) :
    SameSlots s (unlessBusy s p f g) := by
  unfold unlessBusy
  split
  · exact h
  · exact answer_sameSlots s p f _ _

/-- The answer to a request that is performed and released. -/
theorem request_sameSlots {s : State} {p : PortId} {f : Frame} {g : State → State} (h : SameSlots s (g s)) :
    SameSlots s ((unlessBusy s p f g).releasePool p) :=
  (unlessBusy_sameSlots h).trans (releasePool_sameSlots _ p)

theorem judgeFrame_sameSlots (s : State) (p : PortId) (r : Reception) : SameSlots s (judgeFrame s p r) := by
  unfold judgeFrame
  simp only
  split
  · exact setPort_sameSlots s p _
  · split
    · exact (withTables_sameSlots s _).trans (setPort_sameSlots _ p _)
    · exact setPort_sameSlots s p _

theorem expireDebounce_sameSlots (s : State) : SameSlots s (expireDebounce s) := by
  unfold expireDebounce
  simp only
  split
  · exact ⟨rfl, fun _ => rfl⟩
  · have judged : SameSlots s { s with events := { s.events with debounceTimer := none, debounced := some s.events.rawIgnition } } :=
      ⟨rfl, fun _ => rfl⟩
    exact judged.trans (sameSlots_of_events (reportLevel_touches _ _ _))

theorem expireWatch_sameSlots (s : State) (src : Fin 64) : SameSlots s (expireWatch s src) := by
  obtain ⟨t, e, r, h, _, ⟨reported, _⟩, _⟩ := expireWatch_touches s src
  rw [h]
  exact ⟨rfl, fun c => (reported c).2⟩

theorem dropDisabled_sameSlots (s : State) (c : Fin 32) : SameSlots s (dropDisabled s c) := by
  unfold dropDisabled
  split
  · exact .refl s
  · exact updChannel_sameSlots s c fun _ => rfl

/-- A write of EVENT words drops pending edges and calls for a choice (R68, R72). -/
theorem eventsWritten_sameSlots (s : State) (cs : List (Fin 32)) : SameSlots s (eventsWritten s cs) :=
  (foldl_rel (R := SameSlots) SameSlots.refl (fun h k => h.trans k) dropDisabled_sameSlots cs s).trans (callChoice_sameSlots _)

theorem resolveLoads_sameSlots (s : State) (fade : Bool) (ls : List (Fin 32)) : SameSlots s (resolveLoads s fade ls) :=
  sameSlots_of_lamps (resolveLoads_touches s fade ls)

theorem resolveAll_sameSlots (s : State) : SameSlots s (resolveAll s) := sameSlots_of_lamps (resolveAll_touches s)

theorem writeTable_sameSlots (s : State) (a : Area) (index : Nat) (ws : List Word16) : SameSlots s (writeTable s a index ws) := by
  have written := withTables_sameSlots s { s.tables.writeWords (address a index) ws with source := .modified }
  unfold writeTable
  simp only
  split
  · exact written.trans (eventsWritten_sameSlots _ _)
  · exact written.trans (resolveAll_sameSlots _)
  · exact written

theorem loadLimp_sameSlots (s : State) (v : LimpVariant) : SameSlots s (loadLimp s v) := by
  unfold loadLimp
  exact ((withTables_sameSlots s _).trans (eventsWritten_sameSlots _ _)).trans (resolveAll_sameSlots _)

theorem clearLatches_sameSlots (s : State) (ls : List (Fin 32)) : SameSlots s (clearLatches s ls) := by
  unfold clearLatches
  refine SameSlots.trans ?_ (resolveLoads_sameSlots _ _ _)
  exact .of_blocks rfl rfl

theorem answerPortGroup_sameSlots (s : State) (p : PortId) (f : Frame) (g : PortId) (clear : Bool) :
    SameSlots s (answerPortGroup s p f g clear) := by
  have cleared : SameSlots s (if clear then clearPortCounters s g else s) := by
    split
    · exact setPort_sameSlots s g _
    · exact .refl s
  exact (cleared.trans (answer_sameSlots _ p f _ _)).trans (answer_sameSlots _ p f _ _)

theorem readCounters_sameSlots (s : State) (p : PortId) (f : Frame) (group clear : Nat) : SameSlots s (readCounters s p f group clear) := by
  unfold readCounters
  split
  · exact answer_sameSlots s p f _ _
  · split
    · exact answerPortGroup_sameSlots s p f _ _
    · exact answerPortGroup_sameSlots s p f _ _
    · have cleared : SameSlots s (if clear = 1 then clearDeviceCounters s else s) := by
        split
        · exact ⟨rfl, fun _ => rfl⟩
        · exact .refl s
      exact cleared.trans (answer_sameSlots _ p f _ _)
    · exact answer_sameSlots s p f _ _

theorem beginStore_sameSlots (s : State) (p : PortId) (f : Frame) : SameSlots s (beginStore s p f) := by
  unfold beginStore
  split
  · exact (withTables_sameSlots s _).trans (answer_sameSlots _ p f _ _)
  · exact .of_blocks rfl rfl

/-- The commands that can move a slot or a mark of service: the resets, and the engine's own three (R70, R73, R89). -/
def MovesSlots : Instr → Prop
  | .powerOn .. | .brownOut .. | .frameSent .. | .collision .. | .restart .. | .actionTake .. | .chainResume .. | .waitExpiry .. => True
  | _ => False

theorem execLowSupplyHold_leavesSlots (dt : Time) (s : State) : LeavesSlots s (execLowSupplyHold dt s) :=
  live_leavesSlots fun u => by
    rw [EventChannels.abandonStore_eq u]
    exact .of_blocks rfl rfl

theorem execFeedFellBelow2V5_leavesSlots (dt : Time) (s : State) : LeavesSlots s (execFeedFellBelow2V5 dt s) := by
  intro t e
  unfold execFeedFellBelow2V5 at e
  cases e
  split
  · exact .of_blocks rfl rfl
  · exact elapse_sameSlots dt s

theorem execBitsDisturbedInStorage_leavesSlots (dt : Time) (a : Area) (i : Nat) (d : Word16) (s : State) :
    LeavesSlots s (execBitsDisturbedInStorage dt a i d s) := by
  intro t e
  unfold execBitsDisturbedInStorage at e
  simp only at e
  split at e
  · cases e
    exact .of_blocks rfl rfl
  · cases e

theorem execIgnitionInputChange_leavesSlots (dt : Time) (on : Bool) (s : State) : LeavesSlots s (execIgnitionInputChange dt on s) := by
  intro t e
  unfold execIgnitionInputChange at e
  cases e
  split
  · exact elapse_sameSlots dt s
  · exact ⟨rfl, fun _ => rfl⟩

theorem execByteReceived_leavesSlots (dt : Time) (p : PortId) (edge : ByteEdge) (s : State) : LeavesSlots s (execByteReceived dt p edge s) := by
  intro t e
  unfold execByteReceived at e
  cases e
  refine (elapse_sameSlots dt s).trans ?_
  split
  · exact setPort_sameSlots _ p _
  · exact setPort_sameSlots _ p _

theorem execFrameEnd_leavesSlots (dt : Time) (p : PortId) (s : State) : LeavesSlots s (execFrameEnd dt p s) :=
  live_leavesSlots fun u => by
    dsimp only
    split
    · exact (setPort_sameSlots u p _).trans (judgeFrame_sameSlots _ p _)
    · exact .refl u

theorem execSkipEnd_leavesSlots (dt : Time) (p : PortId) (s : State) : LeavesSlots s (execSkipEnd dt p s) :=
  live_leavesSlots fun u => by
    dsimp only
    split
    · exact setPort_sameSlots u p _
    · exact .refl u

theorem execTransmitStart_leavesSlots (dt : Time) (p : PortId) (s : State) : LeavesSlots s (execTransmitStart dt p s) :=
  live_leavesSlots fun u => by
    dsimp only
    split
    · exact setPort_sameSlots u p _
    · exact .refl u

theorem execSentByteReadBackEqual_leavesSlots (dt : Time) (p : PortId) (s : State) : LeavesSlots s (execSentByteReadBackEqual dt p s) :=
  live_leavesSlots fun u => by
    dsimp only
    split
    · split
      · exact setPort_sameSlots u p _
      · exact .refl u
    · exact .refl u

theorem execTransitCopy_leavesSlots (dt : Time) (p : PortId) (s : State) : LeavesSlots s (execTransitCopy dt p s) :=
  live_leavesSlots fun u => by
    split
    · refine (withTables_sameSlots u (u.tables.param (transitFlag p)).1).trans (SameSlots.trans ?_ (releasePool_sameSlots _ p))
      split
      · exact .refl _
      · exact setPort_sameSlots _ _ _
    · exact .refl u

theorem execRouteWalk_leavesSlots (dt : Time) (p : PortId) (s : State) : LeavesSlots s (execRouteWalk dt p s) :=
  live_leavesSlots fun u => by
    split
    · exact (sameSlots_of_route (routeFrame_route u p _)).trans (releasePool_sameSlots _ p)
    · exact .refl u

theorem execWatchExpiry_leavesSlots (dt : Time) (src : Fin 64) (s : State) : LeavesSlots s (execWatchExpiry dt src s) :=
  live_leavesSlots fun u => by
    split
    · exact expireWatch_sameSlots u src
    · exact .refl u

theorem execIgnitionDebounceExpiry_leavesSlots (dt : Time) (s : State) : LeavesSlots s (execIgnitionDebounceExpiry dt s) :=
  live_leavesSlots fun u => by
    split
    · exact expireDebounce_sameSlots u
    · exact .refl u

theorem execLoadFadeExpiry_leavesSlots (dt : Time) (s : State) : LeavesSlots s (execLoadFadeExpiry dt s) :=
  live_leavesSlots fun u => by
    split
    · refine SameSlots.trans ?_ (resolveLoads_sameSlots _ _ _)
      exact .of_blocks rfl rfl
    · exact .refl u

theorem execCoolOffExpiry_leavesSlots (dt : Time) (l : Fin 32) (s : State) : LeavesSlots s (execCoolOffExpiry dt l s) :=
  live_leavesSlots fun u => by
    split
    · refine SameSlots.trans ?_ (resolveLoads_sameSlots _ _ _)
      exact .of_blocks rfl rfl
    · exact .refl u

theorem execRefreshExpiry_leavesSlots (dt : Time) (P : Fin 12) (s : State) : LeavesSlots s (execRefreshExpiry dt P s) :=
  live_leavesSlots fun u => by
    split
    · exact sameSlots_of_lamps ((produceLampcmd_touches u P).trans (startRefresh_touches _ P)).1
    · exact .refl u

theorem execReportTimerExpiry_leavesSlots (dt : Time) (P : Fin 12) (s : State) : LeavesSlots s (execReportTimerExpiry dt P s) :=
  live_leavesSlots fun u => by
    split
    · exact .of_blocks rfl rfl
    · exact .refl u

theorem execFlasherTick_leavesSlots (dt : Time) (s : State) : LeavesSlots s (execFlasherTick dt s) :=
  live_leavesSlots fun u => by
    split
    · split
      · exact sameSlots_of_phase (tickFlasher_touches u _)
      · exact .refl u
    · exact .refl u

theorem execConversion_leavesSlots (dt : Time) (c0 c1 c2 c3 : BitVec 10) (s : State) : LeavesSlots s (execConversion dt c0 c1 c2 c3 s) :=
  live_leavesSlots fun u => by
    have sampled (v : State) (d : Fin 16) (code : Nat) : SameSlots v (presentSample v d code) := sameSlots_of_samples (presentSample_touches v d code)
    split
    · refine (((SameSlots.trans ?_ (sampled _ 0 _)).trans (sampled _ 1 _)).trans (sampled _ 2 _)).trans (sampled _ 3 _)
      exact .of_blocks rfl rfl
    · exact .refl u

theorem execStaleExpiry_leavesSlots (dt : Time) (d : Fin 16) (s : State) : LeavesSlots s (execStaleExpiry dt d s) :=
  live_leavesSlots fun u => by
    split
    · exact .of_blocks rfl rfl
    · exact .refl u

theorem execCoilPulse_leavesSlots (dt : Time) (s : State) : LeavesSlots s (execCoilPulse dt s) :=
  live_leavesSlots fun u => by
    split
    · exact .of_blocks rfl rfl
    · exact .refl u

theorem execGateExpiry_leavesSlots (dt : Time) (s : State) : LeavesSlots s (execGateExpiry dt s) :=
  live_leavesSlots fun u => by
    split
    · refine SameSlots.trans ?_ (sameSlots_of_targets (handReading_touches _ _ _))
      exact .of_blocks rfl rfl
    · exact .refl u

theorem execGaugeUpdate_leavesSlots (dt : Time) (s : State) : LeavesSlots s (execGaugeUpdate dt s) :=
  live_leavesSlots fun u => by
    split
    · refine SameSlots.trans ?_ (sameSlots_of_gauges (updateGauges_touches _))
      exact .of_blocks rfl rfl
    · exact .refl u

theorem execIdentify_leavesSlots (dt : Time) (p : PortId) (s : State) : LeavesSlots s (execIdentify dt p s) :=
  live_leavesSlots fun u => by
    split
    · exact (answer_sameSlots u p _ _ _).trans (releasePool_sameSlots _ p)
    · exact .refl u

theorem execBadRequest_leavesSlots (dt : Time) (p : PortId) (s : State) : LeavesSlots s (execBadRequest dt p s) :=
  live_leavesSlots fun u => by
    split
    · exact (answer_sameSlots u p _ _ _).trans (releasePool_sameSlots _ p)
    · exact .refl u

theorem execReadTable_leavesSlots (dt : Time) (p : PortId) (s : State) : LeavesSlots s (execReadTable dt p s) :=
  live_leavesSlots fun u => by
    split
    · refine request_sameSlots ?_
      unfold readTable
      split
      · split
        · exact answer_sameSlots u p _ _ _
        · exact answer_sameSlots u p _ _ _
      · exact answer_sameSlots u p _ _ _
    · exact .refl u

theorem execWriteTable_leavesSlots (dt : Time) (p : PortId) (s : State) : LeavesSlots s (execWriteTable dt p s) :=
  live_leavesSlots fun u => by
    split
    · refine request_sameSlots ?_
      split
      · exact answer_sameSlots u p _ _ _
      · split
        · exact (writeTable_sameSlots u _ _ _).trans (answer_sameSlots _ p _ _ _)
        · exact answer_sameSlots u p _ _ _
    · exact .refl u

theorem execReadState_leavesSlots (dt : Time) (p : PortId) (s : State) : LeavesSlots s (execReadState dt p s) :=
  live_leavesSlots fun u => by
    split
    · refine request_sameSlots ?_
      split
      · exact answer_sameSlots u p _ _ _
      · exact answer_sameSlots u p _ _ _
    · exact .refl u

theorem execReadCounters_leavesSlots (dt : Time) (p : PortId) (s : State) : LeavesSlots s (execReadCounters dt p s) :=
  live_leavesSlots fun u => by
    split
    · exact request_sameSlots (readCounters_sameSlots u p _ _ _)
    · exact .refl u

theorem execClearLatch_leavesSlots (dt : Time) (p : PortId) (s : State) : LeavesSlots s (execClearLatch dt p s) :=
  live_leavesSlots fun u => by
    split
    · refine request_sameSlots ?_
      split
      · exact (clearLatches_sameSlots u _).trans (answer_sameSlots _ p _ _ _)
      · exact answer_sameSlots u p _ _ _
    · exact .refl u

theorem execStore_leavesSlots (dt : Time) (p : PortId) (s : State) : LeavesSlots s (execStore dt p s) :=
  live_leavesSlots fun u => by
    split
    · exact request_sameSlots (beginStore_sameSlots u p _)
    · exact .refl u

theorem execStoreComplete_leavesSlots (dt : Time) (verified : Bool) (s : State) : LeavesSlots s (execStoreComplete dt verified s) :=
  live_leavesSlots fun u => by
    split
    · split
      · refine SameSlots.trans ?_ (setPort_sameSlots _ _ _)
        exact .of_blocks rfl rfl
      · refine SameSlots.trans ?_ (setPort_sameSlots _ _ _)
        exact .of_blocks rfl rfl
    · exact .refl u
    · exact .refl u

theorem execLoadLimp_leavesSlots (dt : Time) (p : PortId) (s : State) : LeavesSlots s (execLoadLimp dt p s) :=
  live_leavesSlots fun u => by
    split
    · refine request_sameSlots ?_
      split
      · exact answer_sameSlots u p _ _ _
      · split
        · exact (loadLimp_sameSlots u _).trans (answer_sameSlots _ p _ _ _)
        · exact answer_sameSlots u p _ _ _
    · exact .refl u

/-- Every other command leaves the slots and the marks of service. -/
theorem exec_leavesSlots {c : Instr} (h : ¬MovesSlots c) (s : State) : LeavesSlots s (exec c s) := by
  cases c with
  | powerOn | brownOut | frameSent | collision | restart | actionTake | chainResume | waitExpiry => exact absurd trivial h
  | lowSupplyHold dt => exact execLowSupplyHold_leavesSlots dt s
  | feedFellBelow2V5 dt => exact execFeedFellBelow2V5_leavesSlots dt s
  | bitsDisturbedInStorage dt a i d => exact execBitsDisturbedInStorage_leavesSlots dt a i d s
  | ignitionInputChange dt on => exact execIgnitionInputChange_leavesSlots dt on s
  | byteReceived dt p edge => exact execByteReceived_leavesSlots dt p edge s
  | frameEnd dt p => exact execFrameEnd_leavesSlots dt p s
  | skipEnd dt p => exact execSkipEnd_leavesSlots dt p s
  | transmitStart dt p => exact execTransmitStart_leavesSlots dt p s
  | sentByteReadBackEqual dt p => exact execSentByteReadBackEqual_leavesSlots dt p s
  | transitCopy dt p => exact execTransitCopy_leavesSlots dt p s
  | routeWalk dt p => exact execRouteWalk_leavesSlots dt p s
  | watchExpiry dt src => exact execWatchExpiry_leavesSlots dt src s
  | ignitionDebounceExpiry dt => exact execIgnitionDebounceExpiry_leavesSlots dt s
  | loadFadeExpiry dt => exact execLoadFadeExpiry_leavesSlots dt s
  | coolOffExpiry dt l => exact execCoolOffExpiry_leavesSlots dt l s
  | refreshExpiry dt P => exact execRefreshExpiry_leavesSlots dt P s
  | reportTimerExpiry dt P => exact execReportTimerExpiry_leavesSlots dt P s
  | flasherTick dt => exact execFlasherTick_leavesSlots dt s
  | conversion dt c0 c1 c2 c3 => exact execConversion_leavesSlots dt c0 c1 c2 c3 s
  | staleExpiry dt d => exact execStaleExpiry_leavesSlots dt d s
  | coilPulse dt => exact execCoilPulse_leavesSlots dt s
  | gateExpiry dt => exact execGateExpiry_leavesSlots dt s
  | gaugeUpdate dt => exact execGaugeUpdate_leavesSlots dt s
  | identify dt p => exact execIdentify_leavesSlots dt p s
  | readTable dt p => exact execReadTable_leavesSlots dt p s
  | writeTable dt p => exact execWriteTable_leavesSlots dt p s
  | readState dt p => exact execReadState_leavesSlots dt p s
  | readCounters dt p => exact execReadCounters_leavesSlots dt p s
  | clearLatch dt p => exact execClearLatch_leavesSlots dt p s
  | store dt p => exact execStore_leavesSlots dt p s
  | loadLimp dt p => exact execLoadLimp_leavesSlots dt p s
  | badRequest dt p => exact execBadRequest_leavesSlots dt p s
  | storeComplete dt verified => exact execStoreComplete_leavesSlots dt verified s

/-! ## The commands that move slots -/

/-- What a command answers, if it answers a state, meets R71. -/
abbrev MeetsR71 (r : Result) : Prop := ∀ t, r = .next t → t.SlotsWf

/-- A step of the blocks from a state of R71 whose meaning keeps R71. -/
theorem live_meetsR71 {dt : Time} {s : State} {f : State → State} (w : s.SlotsWf) (h : ∀ u : State, u.SlotsWf → (f u).SlotsWf) :
    MeetsR71 (live dt s f) := by
  intro t e
  cases e
  have later := (elapse_sameSlots dt s).slotsWf w
  split
  · exact h _ later
  · exact later

theorem execPowerOn_meetsR71 (dt : Time) (rise : FeedRise) {s : State} (w : s.SlotsWf) : MeetsR71 (execPowerOn dt rise s) := by
  intro t e
  unfold execPowerOn at e
  cases e
  split
  · split
    · exact resetBlocks_slotsWf _ _
    · exact w
  · exact w

theorem execBrownOut_meetsR71 (dt : Time) {s : State} (w : s.SlotsWf) : MeetsR71 (execBrownOut dt s) := by
  intro t e
  unfold execBrownOut at e
  cases e
  split
  · exact resetBlocks_slotsWf _ _
  · exact w

/-- The restart that a freed reply was waited for keeps R71 (R171). -/
theorem afterFreeing_slotsWf {e : QueueEntry} {s : State} (w : s.SlotsWf) : (afterFreeing e s).SlotsWf := by
  unfold afterFreeing
  split
  · exact resetBlocks_slotsWf _ _
  · exact w

theorem setRefillOwed_sameSlots (s : State) (p : PortId) (b : Bool) : SameSlots s (s.setRefillOwed p b) := setPort_sameSlots s p _

theorem settleRefill_sameSlots (s : State) (p : PortId) : SameSlots s (settleRefill s p) :=
  (setRefillOwed_sameSlots s p false).trans (sameSlots_of_lamps (settleRefill_touches s p).1)

theorem owedRefill_sameSlots (s : State) (p : PortId) : SameSlots s (owedRefill s p) := by
  unfold owedRefill
  split
  · exact settleRefill_sameSlots s p
  · exact .refl s

theorem sendHead_slotsWf {s : State} {p : PortId} {refilled : State → State} (w : s.SlotsWf) (h : ∀ u, SameSlots u (refilled u)) :
    (sendHead s p refilled).SlotsWf := by
  unfold sendHead
  simp only
  split
  · exact afterFreeing_slotsWf (((setPort_sameSlots s p _).trans (h _)).slotsWf w)
  · exact w

theorem abandonHead_slotsWf {s : State} {p : PortId} {refilled : State → State} (w : s.SlotsWf) (h : ∀ u, SameSlots u (refilled u)) :
    (abandonHead s p refilled).SlotsWf := by
  unfold abandonHead
  simp only
  split
  · exact afterFreeing_slotsWf
      ((((setPort_sameSlots s p _).trans (sameSlots_of_lamps (markDirty_touches _ _).1)).trans (h _)).slotsWf w)
  · exact w

theorem execFrameSent_meetsR71 (dt : Time) (part : Freeing) {s : State} (w : s.SlotsWf) : MeetsR71 (execFrameSent dt part s) :=
  live_meetsR71 w fun u w => by
    cases part with
    | withRefill p => exact sendHead_slotsWf w fun u => settleRefill_sameSlots u p
    | alone p => exact sendHead_slotsWf w fun u => setRefillOwed_sameSlots u p true
    | refill p => exact (owedRefill_sameSlots u p).slotsWf w

theorem execCollision_meetsR71 (dt : Time) (part : Freeing) {s : State} (w : s.SlotsWf) : MeetsR71 (execCollision dt part s) :=
  live_meetsR71 w fun u w => by
    cases part with
    | withRefill p => exact abandonHead_slotsWf w fun u => settleRefill_sameSlots u p
    | alone p => exact abandonHead_slotsWf w fun u => setRefillOwed_sameSlots u p true
    | refill p => exact (owedRefill_sameSlots u p).slotsWf w

/-- A RESTART accepted resets the part at once or waits for its reply to leave (R171). -/
theorem beginRestart_slotsWf {s : State} (w : s.SlotsWf) (p : PortId) (f : Frame) : (beginRestart s p f).SlotsWf := by
  unfold beginRestart
  simp only
  split
  · exact resetBlocks_slotsWf _ _
  · exact SameSlots.slotsWf (.of_blocks (s.setPort_engine p _) (s.setPort_events p _)) w

theorem execRestart_meetsR71 (dt : Time) (p : PortId) {s : State} (w : s.SlotsWf) : MeetsR71 (execRestart dt p s) :=
  live_meetsR71 w fun u w => by
    split
    · refine (releasePool_sameSlots _ p).slotsWf ?_
      unfold unlessBusy
      split
      · exact beginRestart_slotsWf w p _
      · exact (answer_sameSlots u p _ _ _).slotsWf w
    · exact w

theorem execActionTake_meetsR71 (dt : Time) {s : State} (w : s.SlotsWf) : MeetsR71 (execActionTake dt s) :=
  live_meetsR71 w fun u w => by
    split
    · exact w
    · exact chooseFrom_slotsWf _ u w

theorem execChainResume_meetsR71 (dt : Time) {s : State} (w : s.SlotsWf) : MeetsR71 (execChainResume dt s) :=
  live_meetsR71 w fun u w => by
    split
    · next k lowest => exact resumeSlot_slotsWf w (lowestSlot_state lowest)
    · exact w

theorem execWaitExpiry_meetsR71 (dt : Time) (k : Fin 4) {s : State} (w : s.SlotsWf) : MeetsR71 (execWaitExpiry dt k s) :=
  live_meetsR71 w fun u w => by
    split
    · exact (callChoice_sameSlots _).slotsWf (expire_slotsWf w u.now)
    · exact w

/-- Every command keeps R71. -/
theorem exec_meetsR71 (c : Instr) {s : State} (w : s.SlotsWf) : MeetsR71 (exec c s) := by
  by_cases h : MovesSlots c
  · cases c with
    | powerOn dt rise => exact execPowerOn_meetsR71 dt rise w
    | brownOut dt => exact execBrownOut_meetsR71 dt w
    | frameSent dt part => exact execFrameSent_meetsR71 dt part w
    | collision dt part => exact execCollision_meetsR71 dt part w
    | restart dt p => exact execRestart_meetsR71 dt p w
    | actionTake dt => exact execActionTake_meetsR71 dt w
    | chainResume dt => exact execChainResume_meetsR71 dt w
    | waitExpiry dt k => exact execWaitExpiry_meetsR71 dt k w
    | _ => exact h.elim
  · exact fun t e => (exec_leavesSlots h s t e).slotsWf w

/-- Settles O33: an idle step changes nothing, and every command keeps R71. -/
theorem stepKeepsSlots : Obligations.StepKeepsSlots := by
  intro s t w e
  unfold step at e
  split at e
  · cases e
    exact w
  · next c rest _ =>
    have taken : SameSlots s { s with pending := rest } := .of_blocks rfl rfl
    exact exec_meetsR71 c (taken.slotsWf w) t e

end Sys2Proof.Machine.ChainSlots
end

section
/-! PROOFS. The action engine at work (chapter 5): what its operations change (R81 to R86), how waits end and chains resume (R89), and how a
walk's group of changes reaches gauges, flasher and loads (R76). -/

namespace Sys2Proof.Machine.ActionChains

/-! ## The operations -/

/-- A mode flag after a SET-MODE of this flag or of another (R82). -/
theorem mode_setMode (s : State) (m n : Fin 16) (c : ModeChange) :
    (perform (.setMode m c) s).mode n = if m = n then c.apply (s.mode n) else s.mode n := upd_get _ _ _ _

/-- UP steps the fan request by one level and stays at 7 (R85). -/
theorem fanUp_apply (n : Fin 8) : ∀ request : Fin 8, FanChange.up.apply n request = Fin.ofNat 8 (min 7 (request.val + 1)) := by
  simp only [FanChange.apply]
  decide

/-- DOWN steps the fan request by one level and stays at 0 (R85). -/
theorem fanDown_apply (n : Fin 8) : ∀ request : Fin 8, FanChange.down.apply n request = Fin.ofNat 8 (request.val - 1) := by
  simp only [FanChange.apply]
  decide

/-- The condition of a TEST-LEVEL: a level of UNKNOWN is tested as OPEN (R86). -/
theorem testHolds_testLevel (s : State) (c : Fin 32) (closed : Bool) (offset : Int) :
    testHolds (.testLevel c closed offset) s = if (closed = true ↔ (s.events.channels[c]).level = .isClosed) then some offset else none := by
  have tested : (((s.events.channels[c]).level == .isClosed) = closed) ↔ (closed = true ↔ (s.events.channels[c]).level = .isClosed) := by
    rw [Bool.eq_iff_iff, beq_iff_eq]
    exact iff_comm
  simp only [testHolds, tested]

/-- Settles O30, operation by operation. -/
theorem operationsChangeWhatTheyName : Obligations.OperationsChangeWhatTheyName := by
  intro s
  refine ⟨fun _ _ _ => rfl, fun m n => ⟨?_, ?_, ?_, fun other c => ?_, fun _ => rfl⟩, fun _ => rfl, fun _ _ => rfl, fun n => ⟨rfl, ?_, ?_⟩,
    fun _ _ _ => ⟨rfl, rfl⟩, fun c b o => ⟨rfl, testHolds_testLevel s c b o⟩, rfl⟩
  · exact (mode_setMode s m m .set).trans (if_pos rfl)
  · exact (mode_setMode s m m .clear).trans (if_pos rfl)
  · exact (mode_setMode s m m .toggle).trans (if_pos rfl)
  · exact (mode_setMode s m n c).trans (if_neg other)
  · simp only [perform, fanUp_apply]
  · simp only [perform, fanDown_apply]

/-! ## The waits -/

/-- A wait is over when its slot is SUSPENDED and its timer has come to its moment (R89). -/
theorem waitOver_iff {k : Slot} {now : Time} : k.waitOver now = true ↔ k.state = .suspended ∧ Due k.timer now := by
  rw [Slot.waitOver, Bool.and_eq_true, beq_iff_eq, EventChannels.due_iff]

/-- The lowest slot in a state: the slot is in it, and none before it is (R72, R87). -/
theorem lowestSlot_eq_some_iff {s : State} {x : SlotState} {k : Fin 4} :
    lowestSlot s x = some k ↔ (s.engine.slots[k]).state = x ∧ ∀ j : Fin 4, j < k → (s.engine.slots[j]).state ≠ x := by
  simp only [lowestSlot, List.find?_eq_some_iff_getElem, List.getElem_finRange, beq_iff_eq, Bool.not_eq_true', beq_eq_false_iff_ne]
  refine and_congr_right fun _ => ⟨?_, fun before => ?_⟩
  · rintro ⟨i, h, rfl, before⟩ j below
    exact before j.val below
  · exact ⟨k.val, by simp, rfl, fun j below => before ⟨j, Nat.lt_trans below k.isLt⟩ below⟩

/-- WAIT_EXPIRY of a wait that is over: the waits over by then end together, and a choice is called for (R72, R89). -/
theorem execWaitExpiry_over {dt : Time} {k : Fin 4} {s : State} (run : s.power = .running)
    (ended : (s.engine.slots[k]).waitOver (s.now + dt) = true) :
    execWaitExpiry dt k s =
      .next (({ s.elapse dt with engine := { s.engine with slots := s.engine.slots.map (Slot.expire (s.now + dt)) } } : State).callChoice) := by
  simp only [execWaitExpiry, live_running run, State.elapse_engine, State.elapse_now, ended, if_true]

/-- CHAIN_RESUME resumes the lowest DUE slot (R72, R89). -/
theorem execChainResume_lowest {dt : Time} {k : Fin 4} {s : State} (run : s.power = .running) (lowest : lowestSlot s .due = some k) :
    execChainResume dt s = .next (resumeSlot (s.elapse dt) k) := by
  have later : lowestSlot (s.elapse dt) .due = some k := lowest
  simp only [execChainResume, live_running run, later]

/-- A whole walk leaves levels and pending edges (R76, R79). -/
theorem runWalk_walked (ch : Chain) (i : Fin 256) (s : State) : s.events.Walked (runWalk ch i s).events := by
  obtain ⟨_, e, _, _, walked, _, touched, _⟩ := walk_walk ch 32 i s
  obtain ⟨_, _, _, _, _, handed, _⟩ := commitGroup_touches s (walk ch 32 i s)
  rw [runWalk, State.callChoice_events, handed, walked]
  exact touched

/-- A resumption leaves levels and pending edges (R89). -/
theorem resumeSlot_walked (s : State) (k : Fin 4) : s.events.Walked (resumeSlot s k).events := by
  unfold resumeSlot
  simp only
  split
  · obtain ⟨_, e, _, _, ended, _, touched, _⟩ := endChain_walk ⟨(s.engine.slots[k]).channel, some k⟩ s
    rw [State.callChoice_events, ended]
    exact touched
  · exact runWalk_walked _ _ _

/-- Settles O29, by the waits that are over and by what the slot resumed holds as its next entry. -/
theorem waitsExpireAndResume : Obligations.WaitsExpireAndResume := by
  refine ⟨fun dt k s run suspended expired => ?_, fun dt k s run isDue lowest => ?_⟩
  · refine ⟨_, execWaitExpiry_over run (waitOver_iff.mpr ⟨suspended, expired⟩), rfl, fun j => ?_⟩
    have entry : (s.engine.slots.map (Slot.expire (s.now + dt)))[j] = (s.engine.slots[j]).expire (s.now + dt) := by simp
    exact ⟨fun ended => entry.trans (Slot.expire_over (waitOver_iff.mpr ended)),
      fun waits => entry.trans (Slot.expire_not (Bool.eq_false_iff.mpr fun ended => waits (waitOver_iff.mp ended)))⟩
  · have least := lowestSlot_eq_some_iff.mpr ⟨isDue, lowest⟩
    refine ⟨_, execChainResume_lowest run least, ?_, ?_, fun d => ?_, fun atEnd => ?_, fun i next => ?_⟩
    · obtain ⟨t, a, b, e, n, l, f, g, resumed, reads, _⟩ := resumeSlot_engine (s.elapse dt) k
      rw [resumed]
      exact reads.1
    · obtain ⟨t, a, b, e, n, l, f, g, resumed, _⟩ := resumeSlot_engine (s.elapse dt) k
      rw [resumed]
      rfl
    · obtain ⟨level, pending⟩ := (resumeSlot_walked (s.elapse dt) k).1 d
      exact ⟨pending, level⟩
    · simp only [resumeSlot, State.elapse_engine, atEnd]
      rfl
    · simp only [resumeSlot, State.elapse_engine, next]
      rfl

/-! ## The group of changes: gauges -/

/-- A zeroing update zeroes each gauge (R143). -/
theorem zeroed_gauge (d : GaugeDrive) (g : Fin 4) : d.zeroed.gauges[g] = (d.gauges[g]).zeroed :=
  (ChainSlots.foldl_upd_get (f := GaugeRecord.zeroed) (fun _ => rfl) g (List.finRange 4) d.gauges).trans (if_pos (List.mem_finRange g))

/-- The gauge drive a group of changes leaves: zeroed where IGNITION has cleared (R143). -/
def gaugesAfter (before s : State) : GaugeDrive := if before.ignition && !s.ignition then s.gauges.zeroed else s.gauges

/-- A clearing of IGNITION zeroes the drive (R143). -/
theorem gaugesAfter_cleared {before s : State} (set : before.mode 0 = true) (clear : s.mode 0 = false) : gaugesAfter before s = s.gauges.zeroed := by
  simp only [gaugesAfter, State.ignition, set, clear, Bool.not_false, Bool.and_self, if_true]

/-- Where IGNITION was clear or stands set the drive stands. -/
theorem gaugesAfter_stands {before s : State} (h : before.mode 0 = false ∨ s.mode 0 = true) : gaugesAfter before s = s.gauges := by
  refine if_neg ?_
  rw [State.ignition, State.ignition]
  rcases h with h | h <;> simp [h]

/-! ## The group of changes: flasher -/

/-- A side flashes under HAZARD, or under IGNITION with a side indicated (R113). -/
theorem eitherFlashing_iff (s : State) :
    s.lampEnv.eitherFlashing = true ↔ s.mode 1 = true ∨ (s.mode 0 = true ∧ s.engine.indicate ≠ none) := by
  simp only [LampEnv.eitherFlashing, LampEnv.flashing, State.lampEnv]
  rcases s.engine.indicate with _ | side
  · simp
  · cases s.mode 1 <;> cases side <;> simp

/-- A load counts for the FAST rate: its entry reads good, and its proof status on a flashing side is DEGRADED or OPEN (R121). -/
def Counts (t : TableStore) (v : LampEnv) (loads : Vector LoadRecord 32) (l : Fin 32) : Prop :=
  ∃ e, (t.load l).2 = some e ∧ countsForRate v e (loads[l]).proof = true

theorem countsForRate_iff (v : LampEnv) (e : LoadEntry) (p : ProofStatus) :
    countsForRate v e p = true ↔
      e.pod ≠ none ∧ (e.kind = .indicator ∨ e.kind = .stopTurn) ∧ v.flashing e.side = true ∧ (p = .degraded ∨ p = .isOpen) := by
  simp only [countsForRate, Bool.and_eq_true, Bool.or_eq_true, beq_iff_eq, Option.isSome_iff_ne_none, and_assoc]

/-- One load read of a rate judgement: FAST stays, and a load that counts gives it (R121). -/
theorem judgeRateAt_fast (v : LampEnv) (loads : Vector LoadRecord 32) (p : TableStore × Rate) (l : Fin 32) :
    (judgeRateAt v loads p l).2 = .fast ↔ p.2 = .fast ∨ Counts p.1 v loads l := by
  simp only [judgeRateAt, Counts]
  cases (p.1.load l).2 with
  | none => simp
  | some e =>
    simp only [Option.some.injEq, exists_eq_left']
    split
    · next counts => exact iff_of_true rfl (.inr counts)
    · next counts => exact (or_iff_left counts).symm

/-- The rate judged over some loads is FAST when it was, or when one of them counts in the store as it stood (R121). -/
theorem foldl_judgeRateAt_fast {t : TableStore} (v : LampEnv) (loads : Vector LoadRecord 32) :
    ∀ (ls : List (Fin 32)) (p : TableStore × Rate), t.Reads p.1 →
      ((ls.foldl (judgeRateAt v loads) p).2 = .fast ↔ p.2 = .fast ∨ ∃ l ∈ ls, Counts t v loads l) := by
  intro ls
  induction ls with
  | nil => intro p _; simp
  | cons l ls ih =>
    intro p reads
    have same : Counts p.1 v loads l ↔ Counts t v loads l := by rw [Counts, Counts, reads.load]
    rw [List.foldl_cons, ih _ (reads.trans (judgeRateAt_reads v loads p l)), judgeRateAt_fast, same, or_assoc]
    simp only [List.mem_cons, or_and_right, exists_or, exists_eq_left]

/-- A rate judgement is FAST exactly when a load counts (R121). -/
theorem judgeRate_fast_iff (s : State) : (judgeRate s).2 = .fast ↔ ∃ l, Counts s.tables s.lampEnv s.lamps.loads l := by
  rw [judgeRate, foldl_judgeRateAt_fast _ _ _ _ (.refl _)]
  simp

/-- The flasher at the start of a lit phase: the rate as judged, and the lit length as read, halved at the FAST rate (R116, R121, R122). -/
theorem startPhase_lit_flasher (s : State) :
    (startPhase s .lit).flasher =
      { s.flasher with
        state := .lit, counter := phaseLength (judgeRate s).2 (s.tables.peekParam .litLength)
        loaded := phaseLength (judgeRate s).2 (s.tables.peekParam .litLength), rate := (judgeRate s).2 } := by
  have length : ((judgeRate s).1.param .litLength).2 = s.tables.peekParam .litLength := by
    rw [TableStore.param_value, (judgeRate_reads s).peekParam]
  simp only [startPhase, if_true, length]

/-- An IDLE flasher starts when a side flashes (R116). -/
theorem settleFlasher_starts {s : State} (flashes : s.lampEnv.eitherFlashing = true) (idle : s.flasher.state = .idle) :
    settleFlasher s = startPhase { s with flasher := { s.flasher with tick := some (s.now + Config.ms10) } } .lit := by
  simp only [settleFlasher, flashes, idle, if_true]

/-- A flasher that runs stops when no side flashes (R118). -/
theorem settleFlasher_stops {s : State} (dark : ¬s.lampEnv.eitherFlashing = true) (runs : s.flasher.state ≠ .idle) :
    settleFlasher s = { s with flasher := s.flasher.stopped } := by
  simp only [settleFlasher, if_neg dark, if_neg runs]

/-- A flasher that runs for a side flashing, or is IDLE with none, stands (R119). -/
theorem settleFlasher_stands {s : State} (h : s.lampEnv.eitherFlashing = true ↔ s.flasher.state ≠ .idle) : settleFlasher s = s := by
  unfold settleFlasher
  split
  · next flashes => exact if_neg (h.mp flashes)
  · next dark => exact if_pos (Classical.not_not.mp fun runs => dark (h.mpr runs))

/-! ## The group of changes: loads -/

/-- A load's record after a good or a failing resolution (R94, log 14). -/
def resolved (t : TableStore) (v : LampEnv) (fade : Bool) (l : Fin 32) (r : LoadRecord) : LoadRecord :=
  match (t.load l).2 with
  | some e => r.resolve v fade e
  | none => r.resolveFailing

/-- Loads resolved one after another: each one named is resolved once, by its entry in the store as it stood, and no other is (R94). -/
theorem foldl_resolveLoad_get {t : TableStore} (v : LampEnv) (fade : Bool) (l : Fin 32) :
    ∀ (ls : List (Fin 32)) (p : TableStore × Vector LoadRecord 32), ls.Nodup → t.Reads p.1 →
      ((ls.foldl (resolveLoad v fade) p).2[l]) = if l ∈ ls then resolved t v fade l p.2[l] else p.2[l] := by
  intro ls
  induction ls with
  | nil => intro p _ _; rfl
  | cons k ls ih =>
    intro p distinct reads
    obtain ⟨fresh, distinct⟩ := List.nodup_cons.mp distinct
    have one : (resolveLoad v fade p k).2[l] = if k = l then resolved t v fade l p.2[l] else p.2[l] := by
      simp only [resolveLoad, reads.load, upd_get]
      split
      · next e => subst e; rfl
      · rfl
    rw [List.foldl_cons, ih _ distinct (reads.trans (resolveLoad_reads v fade p k)), one]
    by_cases e : k = l
    · subst e
      simp [fresh]
    · simp [e, Ne.symm e]

/-- A resolution event resolves the loads it names, and the merge of the pods moves none (R94, R101). -/
theorem resolveLoads_get (s : State) (fade : Bool) {ls : List (Fin 32)} (distinct : ls.Nodup) (l : Fin 32) :
    (resolveLoads s fade ls).lamps.loads[l] =
      if l ∈ ls then resolved s.tables s.lampEnv fade l s.lamps.loads[l] else s.lamps.loads[l] := by
  have merged (u : State) : ((List.finRange 12).foldl mergePod u).lamps.loads = u.lamps.loads :=
    (foldl_rel TouchesPods.refl TouchesPods.trans mergePod_touches (List.finRange 12) u).2
  unfold resolveLoads
  simp only [merged]
  exact foldl_resolveLoad_get s.lampEnv fade l ls (s.tables, s.lamps.loads) distinct (.refl _)

/-- A resolution leaves what it reads of modes, indicate request, flasher and clock as it was. -/
theorem resolveAll_lampEnv (s : State) : (resolveAll s).lampEnv = s.lampEnv := by
  obtain ⟨t, a, b, l, e, _⟩ := resolveAll_touches s
  rw [e]
  rfl

theorem resolveAll_flasher (s : State) : (resolveAll s).flasher = s.flasher := by
  obtain ⟨t, a, b, l, e, _⟩ := resolveAll_touches s
  rw [e]

/-! ## The group of changes -/

/-- What a group changes of the requests, M0 to M2 and the indicate request (R94). -/
theorem groupResolves_iff (before s : State) :
    groupResolves before s = true ↔
      (∃ l : Fin 32, (before.lamps.loads[l]).requested ≠ (s.lamps.loads[l]).requested ∨
          (before.lamps.loads[l]).ramp ≠ (s.lamps.loads[l]).ramp) ∨
        before.mode 0 ≠ s.mode 0 ∨ before.mode 1 ≠ s.mode 1 ∨ before.mode 2 ≠ s.mode 2 ∨
          before.engine.indicate ≠ s.engine.indicate := by
  simp only [groupResolves, Bool.or_eq_true, List.any_eq_true, decide_eq_true_eq, bne_iff_ne, List.mem_finRange, true_and, or_assoc]

/-- The state in which a group's resolution is made: the gauge drive and the flasher have taken the group. -/
def settled (before s : State) : State := settleFlasher { s with gauges := gaugesAfter before s }

/-- A group of changes reaches the gauge drive and the flasher, and the loads where it changes what they read (R76, R94). -/
theorem commitGroup_eq (before s : State) :
    commitGroup before s =
      if groupResolves before s = true ∨ (settled before s).flasher.state ≠ s.flasher.state then resolveAll (settled before s)
      else settled before s := by
  have parked : (if before.ignition && !s.ignition then { s with gauges := s.gauges.zeroed } else s) = { s with gauges := gaugesAfter before s } := by
    unfold gaugesAfter
    split <;> rfl
  unfold commitGroup
  simp only [parked, Bool.or_eq_true, bne_iff_ne]
  rfl

/-- A group's flasher is settled before its loads are resolved, and the resolution leaves it (R120). -/
theorem commitGroup_flasher (before s : State) : (commitGroup before s).flasher = (settled before s).flasher := by
  rw [commitGroup_eq]
  split
  · exact resolveAll_flasher _
  · rfl

theorem commitGroup_gauges (before s : State) : (commitGroup before s).gauges = gaugesAfter before s := by
  obtain ⟨t, a, r, l, f, e, _⟩ := commitGroup_touches before s
  rw [e]
  rfl

/-- The settled state is the walk's with its gauge drive and flasher rewritten and its store read. -/
theorem settled_eq (before s : State) :
    s.tables.Reads (settled before s).tables ∧
      settled before s =
        { s with tables := (settled before s).tables, flasher := (settled before s).flasher, gauges := gaugesAfter before s } := by
  obtain ⟨t, f, e, reads⟩ := settleFlasher_touches { s with gauges := gaugesAfter before s }
  rw [settled, e]
  exact ⟨reads, rfl⟩

/-- The flasher a starting group leaves (R116, R121, R122). -/
theorem settled_starts {before s : State} (flashes : s.lampEnv.eitherFlashing = true) (idle : s.flasher.state = .idle) :
    let rate := (judgeRate s).2
    let n := phaseLength rate (s.tables.peekParam .litLength)
    (settled before s).flasher = ⟨.lit, n, n, rate, some (s.now + Config.ms10)⟩ := by
  refine (congrArg State.flasher (settleFlasher_starts (s := { s with gauges := gaugesAfter before s }) flashes idle)).trans ?_
  rw [startPhase_lit_flasher]
  rfl

/-- The flasher a stopping group leaves (R118). -/
theorem settled_stops {before s : State} (dark : ¬s.lampEnv.eitherFlashing = true) (runs : s.flasher.state ≠ .idle) :
    (settled before s).flasher = s.flasher.stopped :=
  congrArg State.flasher (settleFlasher_stops (s := { s with gauges := gaugesAfter before s }) dark runs)

/-- Any other group leaves the flasher (R119). -/
theorem settled_stands {before s : State} (h : s.lampEnv.eitherFlashing = true ↔ s.flasher.state ≠ .idle) :
    (settled before s).flasher = s.flasher :=
  (congrArg State.flasher (settleFlasher_stands (s := { s with gauges := gaugesAfter before s }) h)).trans rfl

/-- Settles O32, block by block: the gauge drive, the flasher's start, stop and standing, and the one resolution. -/
theorem groupReachesTheBlocks : Obligations.GroupReachesTheBlocks := by
  intro before s t flashes counted changed
  have flashing : s.lampEnv.eitherFlashing = true ↔ flashes := eitherFlashing_iff s
  have flasher : t.flasher = (settled before s).flasher := commitGroup_flasher before s
  have gauges : t.gauges = gaugesAfter before s := commitGroup_gauges before s
  obtain ⟨reads, settledFrame⟩ := settled_eq before s
  have resolves : (groupResolves before s = true ∨ (settled before s).flasher.state ≠ s.flasher.state) ↔ changed := by
    rw [groupResolves_iff, ← flasher]
    simp only [or_assoc]
    exact Iff.rfl
  refine ⟨?_, ?_, fun ⟨set, clear⟩ => ?_, fun h => gauges.trans (gaugesAfter_stands h), fun flash idle => ?_, fun dark runs => ?_, fun h => ?_,
    fun change => ?_, fun same => ?_⟩
  · obtain ⟨_, _, _, _, _, e, touched, _⟩ := commitGroup_touches before s
    rw [show t = _ from e]
    exact touched.1
  · obtain ⟨_, _, _, _, _, e, _⟩ := commitGroup_touches before s
    rw [show t = _ from e]
  · rw [gauges, gaugesAfter_cleared set clear]
    exact ⟨rfl, rfl, fun g => zeroed_gauge s.gauges g⟩
  · have starts := flasher.trans (settled_starts (before := before) (flashing.mpr flash) idle)
    have counts (l : Fin 32) : Counts s.tables s.lampEnv s.lamps.loads l ↔ counted l :=
      exists_congr fun e => and_congr_right fun _ => countsForRate_iff _ _ _
    rw [starts]
    refine ⟨rfl, rfl, rfl, fun ⟨l, h⟩ => ?_, fun h => ?_⟩
    · have fast := (judgeRate_fast_iff s).mpr ⟨l, (counts l).mpr h⟩
      simp only [fast, phaseLength, and_self]
    · have normal : (judgeRate s).2 = .normal := by
        cases rate : (judgeRate s).2 with
        | normal => rfl
        | fast =>
          obtain ⟨l, c⟩ := (judgeRate_fast_iff s).mp rate
          exact absurd ((counts l).mp c) (h l)
      simp only [normal, phaseLength, and_self]
  · exact flasher.trans (settled_stops (fun flash => dark (flashing.mp flash)) runs)
  · exact flasher.trans (settled_stands (flashing.trans h))
  · have resolution : t = resolveAll (settled before s) := (commitGroup_eq before s).trans (if_pos (resolves.mpr change))
    refine ⟨fun l => ?_, settled before s, reads.1, ?_, resolution⟩
    · have env : t.lampEnv = (settled before s).lampEnv := by rw [resolution, resolveAll_lampEnv]
      have lamps : (settled before s).lamps = s.lamps := by rw [settledFrame]
      rw [env, resolution, resolveAll, resolveLoads_get _ _ (List.nodup_finRange 32), if_pos (List.mem_finRange l), resolved, reads.load, lamps]
      rfl
    · rw [flasher, gauges]
      exact settledFrame
  · have still : t = settled before s := (commitGroup_eq before s).trans (if_neg fun h => same (resolves.mp h))
    rw [still, settledFrame]
    exact ⟨rfl, rfl, rfl⟩

end Sys2Proof.Machine.ActionChains
end

section
/-! PROOFS. The resolution of a load (R94 to R99, R110): what it reads of its environment, each field it leaves, and the record it makes of one
whose trips are in order. -/

namespace Sys2Proof.Machine.LoadResolution

/-! ## What a resolution reads -/

/-- A side of the car flashes: under HAZARD, or under IGNITION where it is the one indicated (R113). -/
abbrev Flashes (v : LampEnv) (side : Option Side) : Prop :=
  (side = some .left ∨ side = some .right) ∧ (v.hazard = true ∨ (v.ignition = true ∧ v.indicate = side))

theorem flashing_iff (v : LampEnv) (side : Option Side) : v.flashing side = true ↔ Flashes v side := by
  rcases side with _ | side
  · simp [LampEnv.flashing]
  · cases side <;> simp [LampEnv.flashing]

theorem eitherFlashing_iff (v : LampEnv) : v.eitherFlashing = true ↔ Flashes v (some .left) ∨ Flashes v (some .right) := by
  rw [LampEnv.eitherFlashing, Bool.or_eq_true, flashing_iff, flashing_iff]

/-- The gates of a load (R96). -/
theorem gated_iff (v : LampEnv) (e : LoadEntry) (r : LoadRecord) :
    gated v e r = true ↔
      r.binding = none ∨ r.trip ≠ .normal ∨ ((e.kind = .plain ∨ e.kind = .stop) ∧ e.policy = .drop ∧ v.ignition = false) := by
  simp only [gated, Bool.or_eq_true, Bool.and_eq_true, Option.isNone_iff_eq_none, bne_iff_ne, beq_iff_eq, Bool.not_eq_true', or_assoc, and_assoc]

/-! ## Step 1: the binding -/

@[simp] theorem bind_binding (r : LoadRecord) (e : LoadEntry) : (r.bind e).binding = bindingOf e := by
  unfold LoadRecord.bind
  split
  · next same => exact same.symm
  · rfl

@[simp] theorem bind_requested (r : LoadRecord) (e : LoadEntry) : (r.bind e).requested = r.requested := by unfold LoadRecord.bind; split <;> rfl
@[simp] theorem bind_ramp (r : LoadRecord) (e : LoadEntry) : (r.bind e).ramp = r.ramp := by unfold LoadRecord.bind; split <;> rfl
@[simp] theorem bind_current (r : LoadRecord) (e : LoadEntry) : (r.bind e).current = r.current := by unfold LoadRecord.bind; split <;> rfl
@[simp] theorem bind_demand (r : LoadRecord) (e : LoadEntry) : (r.bind e).demand = r.demand := by unfold LoadRecord.bind; split <;> rfl
@[simp] theorem bind_trip (r : LoadRecord) (e : LoadEntry) : (r.bind e).trip = r.trip := by unfold LoadRecord.bind; split <;> rfl
@[simp] theorem bind_retry (r : LoadRecord) (e : LoadEntry) : (r.bind e).retry = r.retry := by unfold LoadRecord.bind; split <;> rfl
@[simp] theorem bind_coolOff (r : LoadRecord) (e : LoadEntry) : (r.bind e).coolOff = r.coolOff := by unfold LoadRecord.bind; split <;> rfl

/-- A change of binding forgets the proof status (R99). -/
theorem bind_proof (r : LoadRecord) (e : LoadEntry) : (r.bind e).proof = if bindingOf e = r.binding then r.proof else .unknown := by
  unfold LoadRecord.bind
  split <;> rfl

/-- A change of binding forgets lit-since (R99). -/
theorem bind_litSince (r : LoadRecord) (e : LoadEntry) : (r.bind e).litSince = if bindingOf e = r.binding then r.litSince else none := by
  unfold LoadRecord.bind
  split <;> rfl

/-! ## Step 2: demand and its fall -/

/-- A fall of demand clears the trips (R110). -/
theorem judgeDemand_fall {r : LoadRecord} {demand : Bool} (h : r.demand = true ∧ demand = false) :
    r.judgeDemand demand = { r.clearTrip with demand := demand } := by
  simp only [LoadRecord.judgeDemand, h, Bool.not_false, Bool.and_self, if_true]

/-- Without a fall the demand alone is rewritten. -/
theorem judgeDemand_stands {r : LoadRecord} {demand : Bool} (h : ¬(r.demand = true ∧ demand = false)) :
    r.judgeDemand demand = { r with demand := demand } := by
  have still : ¬(r.demand && !demand) = true := by simpa using h
  simp only [LoadRecord.judgeDemand, if_neg still]

/-- Whatever becomes of the demand, only the trips are rewritten besides it. -/
theorem judgeDemand_eq (r : LoadRecord) (demand : Bool) :
    r.judgeDemand demand =
      { r with
        demand := demand, trip := (r.judgeDemand demand).trip, retry := (r.judgeDemand demand).retry
        coolOff := (r.judgeDemand demand).coolOff } := by
  unfold LoadRecord.judgeDemand
  split <;> rfl

/-! ## The resolved record -/

/-- A record after the first two steps of a resolution. -/
def judged (r : LoadRecord) (v : LampEnv) (e : LoadEntry) : LoadRecord := (r.bind e).judgeDemand (demandOf v e r.requested)

/-- Steps 3 and 4 of a resolution rewrite the two levels and lit-since of the record judged. -/
theorem resolve_eq (r : LoadRecord) (v : LampEnv) (fade : Bool) (e : LoadEntry) :
    r.resolve v fade e =
      { judged r v e with
        current := (r.resolve v fade e).current, effective := (r.resolve v fade e).effective, litSince := (r.resolve v fade e).litSince } := rfl

section Fields

variable (r : LoadRecord) (v : LampEnv) (fade : Bool) (e : LoadEntry)

theorem resolve_requested : (r.resolve v fade e).requested = r.requested := by
  rw [resolve_eq, judged, judgeDemand_eq, bind_requested]

theorem resolve_ramp : (r.resolve v fade e).ramp = r.ramp := by
  rw [resolve_eq, judged, judgeDemand_eq, bind_ramp]

theorem resolve_binding : (r.resolve v fade e).binding = bindingOf e := by
  rw [resolve_eq, judged, judgeDemand_eq, bind_binding]

theorem resolve_proof : (r.resolve v fade e).proof = if bindingOf e = r.binding then r.proof else .unknown := by
  rw [resolve_eq, judged, judgeDemand_eq, bind_proof]

theorem resolve_demand : (r.resolve v fade e).demand = demandOf v e r.requested := by
  rw [resolve_eq, judged, judgeDemand_eq]

/-- A fall of demand clears trip state, retry count and cool-off (R110). -/
theorem resolve_trips_fall (h : r.demand = true ∧ (r.resolve v fade e).demand = false) :
    (r.resolve v fade e).trip = .normal ∧ (r.resolve v fade e).retry = 0 ∧ (r.resolve v fade e).coolOff = none := by
  rw [resolve_demand] at h
  rw [resolve_eq, judged, judgeDemand_fall (by rwa [bind_demand])]
  exact ⟨rfl, rfl, rfl⟩

/-- Without a fall of demand they stand (R110). -/
theorem resolve_trips_stand (h : ¬(r.demand = true ∧ (r.resolve v fade e).demand = false)) :
    (r.resolve v fade e).trip = r.trip ∧ (r.resolve v fade e).retry = r.retry ∧ (r.resolve v fade e).coolOff = r.coolOff := by
  rw [resolve_demand] at h
  rw [resolve_eq, judged, judgeDemand_stands (by rwa [bind_demand])]
  exact ⟨bind_trip r e, bind_retry r e, bind_coolOff r e⟩

/-- The current level, by the gates of the record resolved (R96 to R98). -/
theorem resolve_current : (r.resolve v fade e).current = currentOf e.kind (gated v e (r.resolve v fade e)) fade r := by
  have same : currentOf e.kind (gated v e (judged r v e)) fade (judged r v e) = currentOf e.kind (gated v e (judged r v e)) fade r := by
    unfold judged
    rw [judgeDemand_eq]
    simp only [currentOf, bind_requested, bind_ramp, bind_current]
  exact same

/-- The effective level, by the gates of the record resolved and its current level (R96, R97). -/
theorem resolve_effective :
    (r.resolve v fade e).effective = if gated v e (r.resolve v fade e) then 0 else drivenLevel v e (r.resolve v fade e).current := rfl

/-- Lit-since is held while the load is at level 15, from the first resolution that finds it there under its binding (R99). -/
theorem resolve_litSince :
    (r.resolve v fade e).litSince =
      if (r.resolve v fade e).effective = 15 then some ((if bindingOf e = r.binding then r.litSince else none).getD v.now) else none := by
  rw [← bind_litSince]
  have kept : (judged r v e).litSince = (r.bind e).litSince := by rw [judged, judgeDemand_eq]
  rw [← kept]
  rfl

/-! ## Levels by kind -/

/-- A step up is a step of one (R98). -/
theorem stepLevel_up {current requested : Level} (h : current < requested) : (stepLevel current requested).val = current.val + 1 := by
  have below : current.val < requested.val := h
  have most : requested.val < 16 := requested.isLt
  rw [stepLevel, if_pos h]
  show (current.val + 1) % 16 = current.val + 1
  exact Nat.mod_eq_of_lt (by omega)

/-- A step down is a step of one (R98). -/
theorem stepLevel_down {current requested : Level} (h : requested < current) : (stepLevel current requested).val + 1 = current.val := by
  have above : requested.val < current.val := h
  have most : current.val < 16 := current.isLt
  rw [stepLevel, if_neg (Fin.lt_asymm h), if_pos h]
  show (15 + current.val) % 16 + 1 = current.val
  omega

/-- A level at its request stays (R98). -/
theorem stepLevel_same (level : Level) : stepLevel level level = level := by simp [stepLevel]

/-- The demand of a load is what its kind takes for one (R95). -/
theorem demandOf_iff (requested : Level) :
    demandOf v e requested = true ↔
      match e.kind with
      | .plain => requested ≠ 0
      | .stop => v.brake = true
      | .indicator => Flashes v e.side
      | .stopTurn => Flashes v e.side ∨ v.brake = true
      | .repeater => Flashes v (some .left) ∨ Flashes v (some .right) := by
  cases kind : e.kind with
  | plain => simp only [demandOf, kind, decide_eq_true_eq, Fin.pos_iff_ne_zero]
  | stop => simp only [demandOf, kind]
  | indicator => simp only [demandOf, kind, flashing_iff]
  | stopTurn => simp only [demandOf, kind, Bool.or_eq_true, flashing_iff]
  | repeater => simp only [demandOf, kind, eitherFlashing_iff]

/-- A gated load is at effective level 0, and a gated PLAIN load at current level 0 too (R96). -/
theorem resolve_gated (h : gated v e (r.resolve v fade e) = true) :
    (r.resolve v fade e).effective = 0 ∧ (e.kind = .plain → (r.resolve v fade e).current = 0) := by
  rw [resolve_effective, resolve_current]
  exact ⟨if_pos h, fun plain => by rw [currentOf, if_pos plain, if_pos h]⟩

/-- The current level of a load that is not PLAIN is its request (R92). -/
theorem resolve_current_request (h : e.kind ≠ .plain) : (r.resolve v fade e).current = r.requested := by
  rw [resolve_current, currentOf, if_neg h]

/-- The current level of a PLAIN load that is not gated: its request, or with a ramp flag one step nearer at each load fade expiry (R97, R98). -/
theorem resolve_current_plain (plain : e.kind = .plain) (h : ¬gated v e (r.resolve v fade e) = true) :
    (r.resolve v fade e).current =
      if r.ramp then (if fade then stepLevel r.current r.requested else r.current) else r.requested := by
  rw [resolve_current, currentOf, if_pos plain, if_neg h]

/-- The effective level of a load that is not gated (R97). -/
theorem resolve_driven (h : ¬gated v e (r.resolve v fade e) = true) :
    (r.resolve v fade e).effective = drivenLevel v e (r.resolve v fade e).current := by
  rw [resolve_effective, if_neg h]

/-- The effective level of a load that is not gated, kind by kind (R97, R98). -/
theorem drivenLevel_iff (current : Level) :
    match e.kind with
    | .plain => drivenLevel v e current = current
    | .stop => drivenLevel v e current = if v.brake = true then 15 else 0
    | .indicator => drivenLevel v e current = if Flashes v e.side ∧ v.lit = true then 15 else 0
    | .stopTurn => drivenLevel v e current = if Flashes v e.side then (if v.lit = true then 15 else 0) else if v.brake = true then 15 else 0
    | .repeater =>
      drivenLevel v e current = if (Flashes v (some .left) ∨ Flashes v (some .right)) ∧ v.lit = true then 15 else 0 := by
  cases kind : e.kind with
  | plain => simp only [drivenLevel, kind]
  | stop => simp only [drivenLevel, kind]
  | indicator => simp only [drivenLevel, kind, Bool.and_eq_true, flashing_iff]
  | stopTurn => simp only [drivenLevel, kind, flashing_iff]
  | repeater => simp only [drivenLevel, kind, Bool.and_eq_true, eitherFlashing_iff]

end Fields

/-- Settles O36, field by field: the binding, the demand and its fall, the gates, and the levels of each kind that is not gated. -/
theorem resolutionFollowsTheKind : Obligations.ResolutionFollowsTheKind := by
  intro v fade e r n flashing either gate
  have gates : gated v e n = true ↔ gate := gated_iff v e n
  have binding : n.binding = bindingOf e := resolve_binding r v fade e
  have lit : n.litSince = if n.effective = 15 then some ((if n.binding = r.binding then r.litSince else none).getD v.now) else none := by
    rw [binding]
    exact resolve_litSince r v fade e
  refine ⟨resolve_requested r v fade e, resolve_ramp r v fade e, binding, ?_, ?_, resolve_trips_fall r v fade e, resolve_trips_stand r v fade e,
    fun shut => resolve_gated r v fade e (gates.mpr shut), fun isOpen => ?_, resolve_current_request r v fade e, fun dark => ?_, fun full => ?_⟩
  · rw [binding]
    exact resolve_proof r v fade e
  · rw [resolve_demand]
    exact demandOf_iff v e r.requested
  · have ungated : ¬gated v e n = true := fun shut => isOpen (gates.mp shut)
    have driven : n.effective = drivenLevel v e n.current := resolve_driven r v fade e ungated
    have level := drivenLevel_iff v e n.current
    rw [← driven] at level
    cases kind : e.kind with
    | plain =>
      have current : n.current = if r.ramp then (if fade then stepLevel r.current r.requested else r.current) else r.requested :=
        resolve_current_plain r v fade e kind ungated
      simp only [kind] at level
      refine ⟨level, fun steady => ?_, fun ramps still => ?_, fun ramps fades => ?_⟩
      · simpa only [steady, Bool.false_eq_true, if_false] using current
      · simpa only [ramps, still, Bool.false_eq_true, if_false, if_true] using current
      · simp only [ramps, fades, if_true] at current
        rw [current]
        exact ⟨stepLevel_up, stepLevel_down, fun same => by rw [← same, stepLevel_same]⟩
    | stop =>
      simp only [kind] at level
      exact ⟨fun on => level.trans (if_pos on), fun off => level.trans (if_neg (Bool.eq_false_iff.mp off))⟩
    | indicator =>
      simp only [kind] at level
      exact ⟨fun on => level.trans (if_pos on), fun off => level.trans (if_neg off)⟩
    | stopTurn =>
      simp only [kind] at level
      refine ⟨fun flash => ⟨fun on => ?_, fun off => ?_⟩, fun still => ⟨fun on => ?_, fun off => ?_⟩⟩
      · exact level.trans ((if_pos flash).trans (if_pos on))
      · exact level.trans ((if_pos flash).trans (if_neg (Bool.eq_false_iff.mp off)))
      · exact level.trans ((if_neg still).trans (if_pos on))
      · exact level.trans ((if_neg still).trans (if_neg (Bool.eq_false_iff.mp off)))
    | repeater =>
      simp only [kind] at level
      exact ⟨fun on => level.trans (if_pos on), fun off => level.trans (if_neg off)⟩
  · rw [lit, if_neg dark]
  · rw [lit, if_pos full]
    split <;> rfl

end Sys2Proof.Machine.LoadResolution
end

section
/-! PROOFS. Lamp reports (R105 to R108): how a report judges one load, the trip of a flagged load, and the proof of a load lit long enough. -/

namespace Sys2Proof.Machine.LampReports

/-- A LOAD entry that reads good leaves the store as it was. -/
theorem load_some {t : TableStore} {l : Fin 32} {e : LoadEntry} (h : (t.load l).2 = some e) : (t.load l).1 = t := by
  obtain ⟨_, read, _⟩ := Option.map_eq_some_iff.mp h
  exact TableStore.readBlock_some read

/-! ## The trip and the proof of one load -/

/-- A trip counts, and is LATCHED when the count has reached the retry limit as read, COOLING with its timer otherwise (R106). -/
theorem tripLoad_record (t : TableStore) (now : Time) (r : LoadRecord) :
    (tripLoad t now r).2 =
      if t.peekParam .retryLimit ≤ r.retry + 1 then { r with retry := r.retry + 1, trip := .latched }
      else { r with retry := r.retry + 1, trip := .cooling, coolOff := some (now + t.peekParam .coolOff * Config.ms100) } := by
  have later : ((t.param .retryLimit).1.param .coolOff).2 = t.peekParam .coolOff := by
    rw [(t.param_reads .retryLimit).param, TableStore.param_value]
  simp only [tripLoad, TableStore.param_value t .retryLimit]
  split
  · rfl
  · rw [later]

/-- A load at level 15 for the proving delay takes its proof status from its current, and a lit filament clears its count (R107, R108). -/
theorem proveLoad_lit {t : TableStore} {now : Time} {e : LoadEntry} {current : Nat} {r : LoadRecord} {since : Time} (lit : r.litSince = some since)
    (full : r.effective = 15) (delay : since + t.peekParam .provingDelay * Config.ms10 ≤ now) :
    (proveLoad t now e current r).2 =
      if e.bulbs ≤ litFilaments current e.current then { r with proof := .proven, retry := 0 }
      else if litFilaments current e.current = 0 then { r with proof := .isOpen }
      else { r with proof := .degraded, retry := 0 } := by
  simp only [proveLoad, lit, full, TableStore.param_value, delay, if_true, proofOf]
  split
  · rfl
  · split <;> rfl

/-- Any other load keeps its record (R107). -/
theorem proveLoad_other {t : TableStore} {now : Time} {e : LoadEntry} {current : Nat} {r : LoadRecord}
    (h : r.litSince = none ∨ r.effective ≠ 15 ∨ ∃ since, r.litSince = some since ∧ now < since + t.peekParam .provingDelay * Config.ms10) :
    (proveLoad t now e current r).2 = r := by
  unfold proveLoad
  split
  · rfl
  · next since lit =>
    split
    · next full =>
      rcases h with dark | low | ⟨since', lit', early⟩
      · rw [lit] at dark
        cases dark
      · exact absurd full low
      · obtain rfl : since = since' := Option.some.inj (lit.symm.trans lit')
        simp only [TableStore.param_value, Nat.not_le.mpr early, if_false]
    · rfl

/-! ## One load judged -/

/-- A bound load trips when its output is flagged and it is lit and NORMAL (R105, R106). -/
abbrev Trips (payload : List Byte) (k : Fin 8) (r : LoadRecord) : Prop := reportFlag payload k = true ∧ 0 < r.effective ∧ r.trip = .normal

section Bound

variable {now : Time} {P : Fin 12} {payload : List Byte} {t : TableStore} {v : Vector LoadRecord 32} {c : List (Fin 32)} {l : Fin 32} {k : Fin 8}
  {e : LoadEntry}

/-- A failing LOAD entry leaves the load as it was (R12). -/
theorem judgeLoad_failing (bound : (v[l]).binding = some (P, k)) (read : (t.load l).2 = none) :
    judgeLoad now P payload (t, v, c) l = ((t.load l).1, v, c) := by
  simp only [judgeLoad, bound, read, if_true]

/-- A load that trips joins the loads whose trip state has changed (R105, R106). -/
theorem judgeLoad_trips (bound : (v[l]).binding = some (P, k)) (read : (t.load l).2 = some e) (trips : Trips payload k v[l]) :
    judgeLoad now P payload (t, v, c) l = ((tripLoad t now v[l]).1, upd v l fun _ => (tripLoad t now v[l]).2, c ++ [l]) := by
  simp only [judgeLoad, bound, read, load_some read, if_true, if_pos trips]

/-- Any other bound load is judged for proof (R107). -/
theorem judgeLoad_proves (bound : (v[l]).binding = some (P, k)) (read : (t.load l).2 = some e) (trips : ¬Trips payload k v[l]) :
    judgeLoad now P payload (t, v, c) l =
      ((proveLoad t now e (reportCurrent payload k) v[l]).1, upd v l fun _ => (proveLoad t now e (reportCurrent payload k) v[l]).2, c) := by
  simp only [judgeLoad, bound, read, load_some read, if_true, if_neg trips]

end Bound

/-- The entry rewritten, under its own index. -/
theorem upd_at {α : Type} {n : Nat} (v : Vector α n) (i : Fin n) (f : α → α) : (upd v i f)[i] = f v[i] := (upd_get v i i f).trans (if_pos rfl)

/-- Settles O37, by what the LOAD entry reads as and whether the load trips. -/
theorem reportTripsAndProves : Obligations.ReportTripsAndProves := by
  intro now P payload t v c l k bound
  refine ⟨fun read => by rw [judgeLoad_failing bound read], ?_⟩
  intro e read w r trips filaments
  by_cases flagged : trips
  · have result : w = (upd v l fun _ => (tripLoad t now r).2, c ++ [l]) := congrArg Prod.snd (judgeLoad_trips bound read flagged)
    rw [result]
    refine ⟨fun j other => upd_other _ _ (Ne.symm other), fun _ => ⟨rfl, ?_⟩, fun quiet => absurd flagged quiet⟩
    exact (upd_at _ _ _).trans (tripLoad_record t now r)
  · have result : w = (upd v l fun _ => (proveLoad t now e (reportCurrent payload k) r).2, c) :=
      congrArg Prod.snd (judgeLoad_proves bound read flagged)
    rw [result]
    refine ⟨fun j other => upd_other _ _ (Ne.symm other), fun trip => absurd trip flagged,
      fun _ => ⟨rfl, fun since lit full delay => ?_, fun other => ?_⟩⟩
    · exact (upd_at _ _ _).trans (proveLoad_lit lit full delay)
    · exact (upd_at _ _ _).trans (proveLoad_other other)

end Sys2Proof.Machine.LampReports
end

section
/-! PROOFS. The load block in order: every load record within R92 to R109 and every pod's levels merged from its loads (R101), kept by each
operation of the load block and by every command. -/

namespace Sys2Proof.Machine.LampPods

open LoadResolution LampReports

/-! ## One load record -/

/-- The trips of a load in order (R106, R109): the part of a record's order that a resolution does not set right. -/
abbrev TripsWf (r : LoadRecord) : Prop :=
  r.retry ≤ 7 ∧ (r.trip ≠ .latched → r.retry ≤ 6) ∧ (r.coolOff.isSome = true ↔ r.trip = .cooling)

theorem tripsWf_of_wf {r : LoadRecord} (w : r.Wf) : TripsWf r := by
  obtain ⟨retry, counted, _, _, timed, _⟩ := w
  exact ⟨retry, counted, timed⟩

/-- Cleared trips are in order (R110). -/
theorem clearTrip_tripsWf (r : LoadRecord) : TripsWf r.clearTrip := by simp [TripsWf, LoadRecord.clearTrip]

/-- A trip of a NORMAL load leaves its trips in order: the retry limit is at most 7 (R6, R106). -/
theorem tripLoad_tripsWf (t : TableStore) (now : Time) {r : LoadRecord} (w : TripsWf r) (normal : r.trip = .normal) :
    TripsWf (tripLoad t now r).2 := by
  obtain ⟨_, counted, timed⟩ := w
  have few : r.retry ≤ 6 := counted (by simp [normal])
  have cold : r.coolOff.isSome = false := by simpa [normal] using timed
  have limit : t.peekParam .retryLimit ≤ 7 := by
    unfold TableStore.peekParam
    simp only
    split
    · decide
    · exact Nat.min_le_left 7 _
  rw [tripLoad_record]
  split
  · exact ⟨by show r.retry + 1 ≤ 7; omega, fun h => absurd rfl h, by simp [cold]⟩
  · exact ⟨by show r.retry + 1 ≤ 7; omega, fun _ => by show r.retry + 1 ≤ 6; omega, by simp⟩

/-- A proof judgement touches proof status and retry count, and the count at most goes to 0 (R107, R108). -/
theorem proveLoad_eq (t : TableStore) (now : Time) (e : LoadEntry) (current : Nat) (r : LoadRecord) :
    ∃ proof retry, (proveLoad t now e current r).2 = { r with proof := proof, retry := retry } ∧ retry ≤ r.retry := by
  have stands : ∃ proof retry, r = { r with proof := proof, retry := retry } ∧ retry ≤ r.retry := ⟨_, _, rfl, Nat.le_refl _⟩
  unfold proveLoad
  split
  · exact stands
  · split
    · dsimp only
      split
      · refine ⟨_, _, rfl, ?_⟩
        split
        · exact Nat.le_refl _
        · exact Nat.zero_le _
      · exact stands
    · exact stands

/-- Trips whose retry count has not gone up are in order where they were. -/
theorem tripsWf_of_proved {r : LoadRecord} (w : TripsWf r) {proof : ProofStatus} {retry : Nat} (h : retry ≤ r.retry) :
    TripsWf { r with proof := proof, retry := retry } := by
  obtain ⟨most, counted, timed⟩ := w
  exact ⟨Nat.le_trans h most, fun unlatched => Nat.le_trans h (counted unlatched), timed⟩

/-- A record whose retry count has not gone up is in order where it was. -/
theorem wf_of_proved {r : LoadRecord} (w : r.Wf) {proof : ProofStatus} {retry : Nat} (h : retry ≤ r.retry) :
    ({ r with proof := proof, retry := retry } : LoadRecord).Wf := by
  obtain ⟨most, counted, rest⟩ := w
  exact ⟨Nat.le_trans h most, fun unlatched => Nat.le_trans h (counted unlatched), rest⟩

/-- A good resolution keeps trips in order: they stand, or a fall of demand clears them (R110). -/
theorem resolve_tripsWf {r : LoadRecord} (w : TripsWf r) (v : LampEnv) (fade : Bool) (e : LoadEntry) : TripsWf (r.resolve v fade e) := by
  by_cases fall : r.demand = true ∧ (r.resolve v fade e).demand = false
  · obtain ⟨trip, retry, coolOff⟩ := resolve_trips_fall r v fade e fall
    simp [TripsWf, trip, retry, coolOff]
  · obtain ⟨trip, retry, coolOff⟩ := resolve_trips_stand r v fade e fall
    rwa [TripsWf, trip, retry, coolOff]

/-- A good resolution of a load whose trips are in order sets the whole record in order (R96, R99). -/
theorem resolve_wf {r : LoadRecord} (w : TripsWf r) (v : LampEnv) (fade : Bool) (e : LoadEntry) : (r.resolve v fade e).Wf := by
  obtain ⟨retry, counted, timed⟩ := resolve_tripsWf w v fade e
  refine ⟨retry, counted, fun unbound => ?_, fun tripped => ?_, timed, ?_⟩
  · exact (resolve_gated r v fade e ((gated_iff _ _ _).mpr (.inl unbound))).1
  · exact (resolve_gated r v fade e ((gated_iff _ _ _).mpr (.inr (.inl tripped)))).1
  · rw [resolve_litSince]
    split
    · next full => exact iff_of_true rfl full
    · next dark => exact iff_of_false nofun dark

/-- So does the resolution of a load whose entry fails (log 14). -/
theorem resolveFailing_wf {r : LoadRecord} (w : TripsWf r) : r.resolveFailing.Wf := by
  obtain ⟨retry, counted, timed⟩ := w
  exact ⟨retry, counted, fun _ => rfl, fun _ => rfl, timed, iff_of_false nofun nofun⟩

/-! ## All load records -/

/-- Every load record in order. -/
abbrev LoadsWf (v : Vector LoadRecord 32) : Prop := ∀ l : Fin 32, (v[l]).Wf

/-- One load resolved: it takes its resolution, and no other load moves. -/
theorem resolveLoad_get (v : LampEnv) (fade : Bool) (p : TableStore × Vector LoadRecord 32) (l j : Fin 32) :
    (resolveLoad v fade p l).2[j] = if l = j then ActionChains.resolved p.1 v fade l p.2[j] else p.2[j] :=
  upd_get _ _ _ _

theorem resolved_wf {r : LoadRecord} (w : TripsWf r) (t : TableStore) (v : LampEnv) (fade : Bool) (l : Fin 32) :
    (ActionChains.resolved t v fade l r).Wf := by
  unfold ActionChains.resolved
  split
  · exact resolve_wf w v fade _
  · exact resolveFailing_wf w

/-- Loads resolved one after another are in order where all trips were, and the loads not resolved were in order. -/
theorem foldl_resolveLoad_wf (v : LampEnv) (fade : Bool) :
    ∀ (ls : List (Fin 32)) (p : TableStore × Vector LoadRecord 32), (∀ l : Fin 32, TripsWf p.2[l]) → (∀ l : Fin 32, l ∉ ls → (p.2[l]).Wf) →
      LoadsWf (ls.foldl (resolveLoad v fade) p).2 := by
  intro ls
  induction ls with
  | nil => intro p _ w l; exact w l (by simp)
  | cons k ls ih =>
    intro p trips w
    refine ih _ (fun l => ?_) fun l out => ?_
    · rw [resolveLoad_get]
      split
      · exact tripsWf_of_wf (resolved_wf (trips l) _ _ _ _)
      · exact trips l
    · rw [resolveLoad_get]
      split
      · exact resolved_wf (trips l) _ _ _ _
      · next other => exact w l (by simp [out, Ne.symm other])

/-! ## The merge of the pods -/

/-- The merge reads bindings and effective levels alone (R101). -/
theorem mergedLevels_congr {v w : Vector LoadRecord 32}
    (h : ∀ l : Fin 32, (w[l]).binding = (v[l]).binding ∧ (w[l]).effective = (v[l]).effective) (P : Fin 12) :
    mergedLevels w P = mergedLevels v P := by
  have binding (l : Fin 32) := (h l).1
  have effective (l : Fin 32) := (h l).2
  simp only [mergedLevels, binding, effective]

/-- Between two states the loads stand and of the pod records the dirty marks alone differ. -/
structure Marked (s u : State) : Prop where
  loads : u.lamps.loads = s.lamps.loads
  pods : ∀ P : Fin 12, u.lamps.pods[P] = { s.lamps.pods[P] with dirty := (u.lamps.pods[P]).dirty }

theorem Marked.of_lamps {s u : State} (h : u.lamps = s.lamps) : Marked s u := ⟨by rw [h], fun P => by rw [h]⟩

theorem Marked.refl (s : State) : Marked s s := .of_lamps rfl

theorem Marked.trans {s u v : State} (h : Marked s u) (k : Marked u v) : Marked s v :=
  ⟨k.loads.trans h.loads, fun P => by rw [k.pods P, h.pods P]⟩

theorem Marked.levels {s u : State} (h : Marked s u) (P : Fin 12) : (u.lamps.pods[P]).levels = (s.lamps.pods[P]).levels := by
  rw [h.pods P]

/-- A dirty mark set or taken away. -/
theorem updPod_marked (s : State) (P : Fin 12) (d : Bool) : Marked s (s.updPod P fun r => { r with dirty := d }) := by
  refine ⟨rfl, fun Q => ?_⟩
  simp only [State.updPod_lamps, upd_get]
  split <;> rfl

theorem offerLampcmd_marked (s : State) (P : Fin 12) (e : PodEntry) : Marked s (offerLampcmd s P e) := by
  unfold offerLampcmd
  split
  · exact (Marked.of_lamps (s.setPort_lamps _ _)).trans (updPod_marked _ P false)
  · exact updPod_marked s P true

/-- The production of a LAMPCMD moves its pod's mark alone (R28, R102). -/
theorem produceLampcmd_marked (s : State) (P : Fin 12) : Marked s (produceLampcmd s P) := by
  have read : Marked s (s.withTables (s.tables.pod P).1) := .of_lamps rfl
  unfold produceLampcmd
  simp only
  split
  · split
    · exact read.trans (updPod_marked _ P false)
    · exact read.trans (offerLampcmd_marked _ P _)
  · exact read.trans (updPod_marked _ P false)

/-- A refill moves marks alone (R29). -/
theorem refillFrom_marked (p : PortId) : ∀ (l : List (Fin 12)) (s : State), Marked s (refillFrom p l s) := by
  intro l
  induction l with
  | nil => intro s; exact .refl s
  | cons P l ih =>
    intro s
    have read : Marked s (s.withTables (s.tables.pod P).1) := .of_lamps rfl
    have cleaned (u : State) : Marked u (u.updPod P fun r => { r with dirty := false }) := updPod_marked u P false
    simp only [refillFrom]
    split
    · split
      · exact (read.trans (cleaned _)).trans (ih _)
      · split
        · exact read.trans (ih _)
        · split
          · exact (read.trans (cleaned _)).trans (ih _)
          · split
            · exact ((read.trans (.of_lamps (State.setPort_lamps _ _ _))).trans (cleaned _)).trans (ih _)
            · exact read
    · exact ih s

/-- Between two states of the pod records levels and dirty marks alone differ, and the loads stand. -/
structure Commanded (s u : State) : Prop where
  loads : u.lamps.loads = s.lamps.loads
  pods : ∀ P : Fin 12, u.lamps.pods[P] = { s.lamps.pods[P] with levels := (u.lamps.pods[P]).levels, dirty := (u.lamps.pods[P]).dirty }

theorem Commanded.refl (s : State) : Commanded s s := ⟨rfl, fun _ => rfl⟩

theorem Commanded.trans {s u v : State} (h : Commanded s u) (k : Commanded u v) : Commanded s v :=
  ⟨k.loads.trans h.loads, fun P => by rw [k.pods P, h.pods P]⟩

theorem Marked.commanded {s u : State} (h : Marked s u) : Commanded s u := ⟨h.loads, fun P => by rw [h.pods P]⟩

/-- The merge of one pod touches its levels, and marks (R101). -/
theorem mergePod_commanded (s : State) (P : Fin 12) : Commanded s (mergePod s P) := by
  have taken : Commanded s (s.updPod P fun r => { r with levels := mergedLevels s.lamps.loads P }) := by
    refine ⟨rfl, fun Q => ?_⟩
    simp only [State.updPod_lamps, upd_get]
    split <;> rfl
  unfold mergePod
  simp only
  split
  · exact .refl s
  · exact taken.trans (produceLampcmd_marked _ P).commanded

/-- The merge of one pod takes the merged levels, and leaves every other pod's (R101). -/
theorem mergePod_levels (s : State) (P Q : Fin 12) :
    ((mergePod s P).lamps.pods[Q]).levels = if P = Q then mergedLevels s.lamps.loads P else (s.lamps.pods[Q]).levels := by
  unfold mergePod
  simp only
  split
  · next same =>
    split
    · next e => subst e; exact same.symm
    · rfl
  · rw [(produceLampcmd_marked _ P).levels, State.updPod_lamps, upd_get]
    split <;> rfl

/-- The pods merged one after another: each one named takes the levels merged from the loads (R101). -/
theorem foldl_mergePod_levels (Q : Fin 12) : ∀ (ps : List (Fin 12)) (s : State),
    ((ps.foldl mergePod s).lamps.pods[Q]).levels = if Q ∈ ps then mergedLevels s.lamps.loads Q else (s.lamps.pods[Q]).levels := by
  intro ps
  induction ps with
  | nil => intro s; rfl
  | cons P ps ih =>
    intro s
    rw [List.foldl_cons, ih, (mergePod_commanded s P).loads, mergePod_levels]
    by_cases e : P = Q
    · subst e
      simp
    · simp [e, Ne.symm e]

/-- The merge of all pods. -/
theorem foldl_mergePod_commanded (s : State) : Commanded s ((List.finRange 12).foldl mergePod s) :=
  foldl_rel Commanded.refl Commanded.trans mergePod_commanded _ s

/-! ## A resolution event -/

/-- The state of a resolution event with its loads resolved and its pods still to merge. -/
def loadsResolved (s : State) (fade : Bool) (ls : List (Fin 32)) : State :=
  let r := ls.foldl (resolveLoad s.lampEnv fade) (s.tables, s.lamps.loads)
  { s with tables := r.1, lamps := { s.lamps with loads := r.2 } }

/-- A resolution event resolves the loads, then merges the pods (R94, R101). -/
theorem resolveLoads_eq (s : State) (fade : Bool) (ls : List (Fin 32)) :
    resolveLoads s fade ls = (List.finRange 12).foldl mergePod (loadsResolved s fade ls) := rfl

theorem resolveLoads_commanded (s : State) (fade : Bool) (ls : List (Fin 32)) : Commanded (loadsResolved s fade ls) (resolveLoads s fade ls) :=
  foldl_mergePod_commanded _

/-- A resolution event leaves the pods merged, whatever they were (R101). -/
theorem resolveLoads_podsMerged (s : State) (fade : Bool) (ls : List (Fin 32)) : (resolveLoads s fade ls).PodsMerged := by
  intro P
  rw [(resolveLoads_commanded s fade ls).loads, resolveLoads_eq, foldl_mergePod_levels, if_pos (List.mem_finRange P)]

/-- A resolution event touches levels and dirty marks of the pods alone (R101). -/
theorem resolveLoads_pods (s : State) (fade : Bool) (ls : List (Fin 32)) (P : Fin 12) :
    (resolveLoads s fade ls).lamps.pods[P] =
      { s.lamps.pods[P] with
        levels := ((resolveLoads s fade ls).lamps.pods[P]).levels, dirty := ((resolveLoads s fade ls).lamps.pods[P]).dirty } :=
  (resolveLoads_commanded s fade ls).pods P

/-- A resolution event sets the loads in order where all trips were, and the loads it does not name were in order. -/
theorem resolveLoads_loadsWf {s : State} {ls : List (Fin 32)} (fade : Bool) (trips : ∀ l : Fin 32, TripsWf s.lamps.loads[l])
    (w : ∀ l : Fin 32, l ∉ ls → (s.lamps.loads[l]).Wf) : LoadsWf (resolveLoads s fade ls).lamps.loads := by
  rw [(resolveLoads_commanded s fade ls).loads]
  exact foldl_resolveLoad_wf _ _ ls _ trips w

/-! ## The load block kept in order -/

/-- What keeps the load block in order: loads in order stay so, and pods merged stay so. -/
structure Kept (s u : State) : Prop where
  loads : LoadsWf s.lamps.loads → LoadsWf u.lamps.loads
  pods : s.PodsMerged → u.PodsMerged

theorem Kept.refl (s : State) : Kept s s := ⟨id, id⟩

theorem Kept.trans {s u v : State} (h : Kept s u) (k : Kept u v) : Kept s v := ⟨fun w => k.loads (h.loads w), fun w => k.pods (h.pods w)⟩

/-- Where bindings and effective levels stand and the pods keep their levels, loads that stay in order are enough. -/
theorem Kept.of_records {s u : State} (loads : LoadsWf s.lamps.loads → LoadsWf u.lamps.loads)
    (read : ∀ l : Fin 32, (u.lamps.loads[l]).binding = (s.lamps.loads[l]).binding ∧ (u.lamps.loads[l]).effective = (s.lamps.loads[l]).effective)
    (levels : ∀ P : Fin 12, (u.lamps.pods[P]).levels = (s.lamps.pods[P]).levels) : Kept s u :=
  ⟨loads, fun w P => by rw [levels, w P, mergedLevels_congr read]⟩

theorem Kept.of_lamps {s u : State} (h : u.lamps = s.lamps) : Kept s u :=
  .of_records (by rw [h]; exact id) (fun _ => by rw [h]; exact ⟨rfl, rfl⟩) fun _ => by rw [h]

theorem Marked.kept {s u : State} (h : Marked s u) : Kept s u :=
  .of_records (by rw [h.loads]; exact id) (fun _ => by rw [h.loads]; exact ⟨rfl, rfl⟩) h.levels

/-- An update of a pod record that keeps its levels. -/
theorem updPod_kept (s : State) (P : Fin 12) {f : PodRecord → PodRecord} (h : ∀ r, (f r).levels = r.levels) : Kept s (s.updPod P f) := by
  refine .of_records id (fun _ => ⟨rfl, rfl⟩) fun Q => ?_
  rw [State.updPod_lamps, upd_get]
  split
  · exact h _
  · rfl

/-- A resolution event from loads in order (R94). -/
theorem resolveLoads_kept (s : State) (fade : Bool) (ls : List (Fin 32)) : Kept s (resolveLoads s fade ls) :=
  ⟨fun w => resolveLoads_loadsWf fade (fun l => tripsWf_of_wf (w l)) fun l _ => w l, fun _ => resolveLoads_podsMerged s fade ls⟩

theorem resolveAll_podsMerged (s : State) : (resolveAll s).PodsMerged := by
  rw [resolveAll]
  exact resolveLoads_podsMerged s false _

theorem resolveAll_kept (s : State) : Kept s (resolveAll s) := resolveLoads_kept s false _

theorem withTables_kept (s : State) (t : TableStore) : Kept s (s.withTables t) := .of_lamps rfl

theorem startRefresh_kept (s : State) (P : Fin 12) : Kept s (startRefresh s P) := by
  unfold startRefresh
  exact (withTables_kept s _).trans (updPod_kept _ P fun _ => rfl)

theorem startReport_kept (s : State) (P : Fin 12) : Kept s (startReport s P) := by
  unfold startReport
  exact (withTables_kept s _).trans (updPod_kept _ P fun _ => rfl)

/-! ## Lamp reports -/

/-- What a report does to one load: nothing, the trip of a NORMAL load, which joins those to resolve, or a judgement of its proof (R105). -/
theorem judgeLoad_cases (now : Time) (P : Fin 12) (payload : List Byte) (p : TableStore × Vector LoadRecord 32 × List (Fin 32)) (l : Fin 32) :
    (judgeLoad now P payload p l).2 = p.2 ∨
      (∃ t, (p.2.1[l]).trip = .normal ∧ (judgeLoad now P payload p l).2 = (upd p.2.1 l fun _ => (tripLoad t now p.2.1[l]).2, p.2.2 ++ [l])) ∨
        ∃ proof retry, retry ≤ (p.2.1[l]).retry ∧
          (judgeLoad now P payload p l).2 = (upd p.2.1 l fun r => { r with proof := proof, retry := retry }, p.2.2) := by
  obtain ⟨t, v, c⟩ := p
  cases bound : (v[l]).binding with
  | none => exact .inl (by simp only [judgeLoad, bound])
  | some b =>
    obtain ⟨Q, k⟩ := b
    by_cases own : Q = P
    · subst own
      cases read : (t.load l).2 with
      | none => exact .inl (by rw [judgeLoad_failing bound read])
      | some e =>
        by_cases trips : Trips payload k v[l]
        · exact .inr (.inl ⟨t, trips.2.2, congrArg Prod.snd (judgeLoad_trips bound read trips)⟩)
        · obtain ⟨proof, retry, proved, fewer⟩ := proveLoad_eq t now e (reportCurrent payload k) v[l]
          refine .inr (.inr ⟨proof, retry, fewer, ?_⟩)
          rw [judgeLoad_proves bound read trips, proved]
          rfl
    · exact .inl (by simp only [judgeLoad, bound, if_neg own])

/-- The loads as a report leaves them before the resolution it calls for: bindings and effective levels stand, all trips are in order, and the
loads not to be resolved are in order. -/
structure Judged (v w : Vector LoadRecord 32) (changed : List (Fin 32)) : Prop where
  read : ∀ l : Fin 32, (w[l]).binding = (v[l]).binding ∧ (w[l]).effective = (v[l]).effective
  trips : LoadsWf v → ∀ l : Fin 32, TripsWf w[l]
  others : LoadsWf v → ∀ l : Fin 32, l ∉ changed → (w[l]).Wf

theorem tripLoad_read (t : TableStore) (now : Time) (r : LoadRecord) :
    (tripLoad t now r).2.binding = r.binding ∧ (tripLoad t now r).2.effective = r.effective := by
  rw [tripLoad_record]
  split <;> exact ⟨rfl, rfl⟩

theorem Judged.refl (v : Vector LoadRecord 32) : Judged v v [] := ⟨fun _ => ⟨rfl, rfl⟩, fun w l => tripsWf_of_wf (w l), fun w l _ => w l⟩

/-- A load rewritten while a report is judged: its trips stay in order, and its record too unless it is to be resolved. -/
theorem Judged.upd {v w : Vector LoadRecord 32} {changed more : List (Fin 32)} (h : Judged v w changed) (l : Fin 32) {f : LoadRecord → LoadRecord}
    (read : (f w[l]).binding = (w[l]).binding ∧ (f w[l]).effective = (w[l]).effective) (trips : TripsWf w[l] → TripsWf (f w[l]))
    (more_eq : more = changed ++ [l] ∨ more = changed ∧ ((w[l]).Wf → (f w[l]).Wf)) : Judged v (Machine.upd w l f) more := by
  refine ⟨fun j => ?_, fun wf j => ?_, fun wf j out => ?_⟩
  · rw [upd_get]
    split
    · next e => subst e; exact ⟨read.1.trans (h.read l).1, read.2.trans (h.read l).2⟩
    · exact h.read j
  · rw [upd_get]
    split
    · next e => subst e; exact trips (h.trips wf l)
    · exact h.trips wf j
  · rw [upd_get]
    rcases more_eq with rfl | ⟨rfl, keeps⟩
    · obtain ⟨out, other⟩ : j ∉ changed ∧ j ≠ l := by simpa using out
      rw [if_neg (Ne.symm other)]
      exact h.others wf j out
    · split
      · next e => subst e; exact keeps (h.others wf l out)
      · exact h.others wf j out

theorem judgeLoad_judged {v : Vector LoadRecord 32} (now : Time) (P : Fin 12) (payload : List Byte)
    {p : TableStore × Vector LoadRecord 32 × List (Fin 32)} (h : Judged v p.2.1 p.2.2) (l : Fin 32) :
    Judged v (judgeLoad now P payload p l).2.1 (judgeLoad now P payload p l).2.2 := by
  rcases judgeLoad_cases now P payload p l with stands | ⟨t, normal, tripped⟩ | ⟨proof, retry, fewer, proved⟩
  · rwa [stands]
  · rw [tripped]
    exact h.upd l (f := fun _ => (tripLoad t now p.2.1[l]).2) (tripLoad_read _ _ _) (fun w => tripLoad_tripsWf t now w normal) (.inl rfl)
  · rw [proved]
    exact h.upd l (f := fun r => { r with proof := proof, retry := retry }) ⟨rfl, rfl⟩ (fun w => tripsWf_of_proved w fewer)
      (.inr ⟨rfl, fun w => wf_of_proved w fewer⟩)

/-- A report judges the loads one after another (R105). -/
theorem foldl_judgeLoad_judged {v : Vector LoadRecord 32} (now : Time) (P : Fin 12) (payload : List Byte) :
    ∀ (ls : List (Fin 32)) (p : TableStore × Vector LoadRecord 32 × List (Fin 32)), Judged v p.2.1 p.2.2 →
      Judged v (ls.foldl (judgeLoad now P payload) p).2.1 (ls.foldl (judgeLoad now P payload) p).2.2 := by
  intro ls
  induction ls with
  | nil => intro p h; exact h
  | cons l ls ih => intro p h; exact ih _ (judgeLoad_judged now P payload h l)

/-- A report keeps the load block in order: the loads it trips are resolved at once (R105, R106). -/
theorem takeReport_kept (s : State) (P : Fin 12) (payload : List Byte) : Kept s (takeReport s P payload) := by
  have live : Kept s (startReport (s.updPod P fun r => { r with state := .live }) P) :=
    (updPod_kept s P (f := fun r => { r with state := .live }) fun _ => rfl).trans (startReport_kept _ P)
  unfold takeReport
  simp only
  generalize startReport (s.updPod P fun r => { r with state := .live }) P = u at live ⊢
  have report := foldl_judgeLoad_judged u.now P payload (List.finRange 32) (u.tables, u.lamps.loads, []) (.refl _)
  generalize (List.finRange 32).foldl (judgeLoad u.now P payload) (u.tables, u.lamps.loads, []) = r at report ⊢
  obtain ⟨t, v, changed⟩ := r
  obtain ⟨read, trips, others⟩ := report
  refine live.trans ?_
  split
  · next none =>
    have none : changed = [] := List.isEmpty_iff.mp none
    exact .of_records (fun w l => others w l (by simp [none])) read fun _ => rfl
  · exact ⟨fun w => resolveLoads_loadsWf false (trips w) (others w), fun _ => resolveLoads_podsMerged _ _ _⟩

end Sys2Proof.Machine.LampPods
end

section
/-! PROOFS. The steps on the load block: the commands that leave it as it was, and what keeps it in order in each of the others. -/

namespace Sys2Proof.Machine.LampSteps

open LampPods

/-! ## The operations that leave the load block -/

theorem events_lamps {s u : State} (h : TouchesEvents s u) : u.lamps = s.lamps := by
  obtain ⟨t, e, rfl, _⟩ := h
  rfl

theorem samples_lamps {s u : State} (h : TouchesSamples s u) : u.lamps = s.lamps := by
  obtain ⟨t, e, v, g, rfl, _⟩ := h
  rfl

theorem targets_lamps {s u : State} (h : TouchesTargets s u) : u.lamps = s.lamps := by
  obtain ⟨t, g, rfl, _⟩ := h
  rfl

theorem gauges_lamps {s u : State} (h : TouchesGauges s u) : u.lamps = s.lamps := by
  obtain ⟨t, g, rfl, _⟩ := h
  rfl

theorem flasher_lamps {s u : State} (h : TouchesFlasher s u) : u.lamps = s.lamps := by
  obtain ⟨t, f, rfl, _⟩ := h
  rfl

@[simp] theorem releasePool_lamps (s : State) (p : PortId) : (s.releasePool p).lamps = s.lamps := s.setPort_lamps p _

@[simp] theorem answer_lamps (s : State) (p : PortId) (f : Frame) (status : Status) (data : List Byte) : (answer s p f status data).lamps = s.lamps :=
  s.setPort_lamps p _

/-- A choice between two states that both have the load block of a third. -/
theorem ite_lamps {c : Prop} [Decidable c] {s u v : State} (hu : u.lamps = s.lamps) (hv : v.lamps = s.lamps) :
    (if c then u else v).lamps = s.lamps := by
  split
  · exact hu
  · exact hv

/-- A request performed and released leaves the load block where its performing does (R159). -/
theorem request_lamps {s : State} {p : PortId} {f : Frame} {g : State → State} (h : (g s).lamps = s.lamps) :
    ((unlessBusy s p f g).releasePool p).lamps = s.lamps :=
  (releasePool_lamps _ p).trans (ite_lamps h (answer_lamps s p f _ _))

theorem judgeFrame_lamps (s : State) (p : PortId) (r : Reception) : (judgeFrame s p r).lamps = s.lamps :=
  ite_lamps (s.setPort_lamps p _) (ite_lamps (State.setPort_lamps _ p _) (s.setPort_lamps p _))

theorem readTable_lamps (s : State) (p : PortId) (f : Frame) (area : Byte) (index count : Nat) :
    (readTable s p f area index count).lamps = s.lamps := by
  unfold readTable
  split
  · exact ite_lamps (answer_lamps s p f _ _) (answer_lamps s p f _ _)
  · exact answer_lamps s p f _ _

theorem answerPortGroup_lamps (s : State) (p : PortId) (f : Frame) (g : PortId) (clear : Bool) : (answerPortGroup s p f g clear).lamps = s.lamps := by
  have cleared : (if clear then clearPortCounters s g else s).lamps = s.lamps := ite_lamps (s.setPort_lamps g _) rfl
  exact ((answer_lamps _ p f _ _).trans (answer_lamps _ p f _ _)).trans cleared

theorem readCounters_lamps (s : State) (p : PortId) (f : Frame) (group clear : Nat) : (readCounters s p f group clear).lamps = s.lamps := by
  unfold readCounters
  split
  · exact answer_lamps s p f _ _
  · split
    · exact answerPortGroup_lamps s p f _ _
    · exact answerPortGroup_lamps s p f _ _
    · exact (answer_lamps _ p f _ _).trans (ite_lamps rfl rfl)
    · exact answer_lamps s p f _ _

theorem beginStore_lamps (s : State) (p : PortId) (f : Frame) : (beginStore s p f).lamps = s.lamps := by
  unfold beginStore
  split
  · exact answer_lamps _ p f _ _
  · rfl

theorem dropDisabled_lamps (s : State) (c : Fin 32) : (dropDisabled s c).lamps = s.lamps := ite_lamps rfl rfl

/-- A write of EVENT words leaves the load block (R68). -/
theorem eventsWritten_lamps (s : State) (cs : List (Fin 32)) : (eventsWritten s cs).lamps = s.lamps :=
  foldl_rel (R := fun a b : State => b.lamps = a.lamps) (fun _ => rfl) (fun h k => k.trans h) dropDisabled_lamps cs s

/-! ## The commands that leave the load block -/

/-- The commands that can change the load block: the resets, the freeing of queue entries with its refill (R29), routed frames, the
action engine's walks, the expiries of chapters 6 and 7, and the services that resolve loads. -/
def MovesLamps : Instr → Prop
  | .powerOn .. | .brownOut .. | .frameSent .. | .collision .. | .restart .. | .routeWalk .. | .actionTake .. | .chainResume .. => True
  | .loadFadeExpiry .. | .coolOffExpiry .. | .refreshExpiry .. | .reportTimerExpiry .. | .flasherTick .. => True
  | .writeTable .. | .clearLatch .. | .loadLimp .. => True
  | _ => False

/-- What a command answers, if it answers a state, has the load block the command found. -/
abbrev LeavesLamps (s : State) (r : Result) : Prop := ∀ t, r = .next t → t.lamps = s.lamps

/-- A step of the blocks whose meaning leaves the load block. -/
theorem live_leavesLamps {dt : Time} {s : State} {f : State → State} (h : ∀ u : State, (f u).lamps = u.lamps) : LeavesLamps s (live dt s f) := by
  intro t e
  cases e
  exact ite_lamps (h _) rfl

theorem execLowSupplyHold_leavesLamps (dt : Time) (s : State) : LeavesLamps s (execLowSupplyHold dt s) :=
  live_leavesLamps fun u => by rw [EventChannels.abandonStore_eq u]

theorem execFeedFellBelow2V5_leavesLamps (dt : Time) (s : State) : LeavesLamps s (execFeedFellBelow2V5 dt s) := by
  intro t e
  unfold execFeedFellBelow2V5 at e
  cases e
  split <;> rfl

theorem execBitsDisturbedInStorage_leavesLamps (dt : Time) (a : Area) (i : Nat) (d : Word16) (s : State) :
    LeavesLamps s (execBitsDisturbedInStorage dt a i d s) := by
  intro t e
  unfold execBitsDisturbedInStorage at e
  simp only at e
  split at e
  · cases e
    rfl
  · cases e

theorem execIgnitionInputChange_leavesLamps (dt : Time) (on : Bool) (s : State) : LeavesLamps s (execIgnitionInputChange dt on s) := by
  intro t e
  unfold execIgnitionInputChange at e
  cases e
  exact ite_lamps rfl rfl

theorem execByteReceived_leavesLamps (dt : Time) (p : PortId) (edge : ByteEdge) (s : State) : LeavesLamps s (execByteReceived dt p edge s) := by
  intro t e
  unfold execByteReceived at e
  cases e
  exact ite_lamps (State.setPort_lamps _ p _) (State.setPort_lamps _ p _)

theorem execFrameEnd_leavesLamps (dt : Time) (p : PortId) (s : State) : LeavesLamps s (execFrameEnd dt p s) :=
  live_leavesLamps fun u => ite_lamps ((judgeFrame_lamps _ p _).trans (u.setPort_lamps p _)) rfl

theorem execSkipEnd_leavesLamps (dt : Time) (p : PortId) (s : State) : LeavesLamps s (execSkipEnd dt p s) :=
  live_leavesLamps fun u => ite_lamps (u.setPort_lamps p _) rfl

theorem execTransmitStart_leavesLamps (dt : Time) (p : PortId) (s : State) : LeavesLamps s (execTransmitStart dt p s) :=
  live_leavesLamps fun u => ite_lamps (u.setPort_lamps p _) rfl

theorem execSentByteReadBackEqual_leavesLamps (dt : Time) (p : PortId) (s : State) : LeavesLamps s (execSentByteReadBackEqual dt p s) :=
  live_leavesLamps fun u => by
    dsimp only
    split
    · exact ite_lamps (u.setPort_lamps p _) rfl
    · rfl

theorem execTransitCopy_leavesLamps (dt : Time) (p : PortId) (s : State) : LeavesLamps s (execTransitCopy dt p s) :=
  live_leavesLamps fun u => by
    split
    · exact (releasePool_lamps _ p).trans (ite_lamps rfl (State.setPort_lamps _ _ _))
    · rfl

theorem execWaitExpiry_leavesLamps (dt : Time) (k : Fin 4) (s : State) : LeavesLamps s (execWaitExpiry dt k s) :=
  live_leavesLamps fun _ => ite_lamps rfl rfl

theorem execWatchExpiry_leavesLamps (dt : Time) (src : Fin 64) (s : State) : LeavesLamps s (execWatchExpiry dt src s) :=
  live_leavesLamps fun u => by
    obtain ⟨t, e, r, expired, _⟩ := expireWatch_touches u src
    exact ite_lamps (by rw [expired]) rfl

theorem execIgnitionDebounceExpiry_leavesLamps (dt : Time) (s : State) : LeavesLamps s (execIgnitionDebounceExpiry dt s) :=
  live_leavesLamps fun u => by
    obtain ⟨t, e, expired, _⟩ := expireDebounce_touches u
    exact ite_lamps (by rw [expired]) rfl

theorem execConversion_leavesLamps (dt : Time) (c0 c1 c2 c3 : BitVec 10) (s : State) : LeavesLamps s (execConversion dt c0 c1 c2 c3 s) :=
  live_leavesLamps fun u => by
    have sampled (v : State) (d : Fin 16) (code : Nat) : (presentSample v d code).lamps = v.lamps := samples_lamps (presentSample_touches v d code)
    refine ite_lamps ?_ rfl
    simp only [sampled]

theorem execStaleExpiry_leavesLamps (dt : Time) (d : Fin 16) (s : State) : LeavesLamps s (execStaleExpiry dt d s) :=
  live_leavesLamps fun _ => ite_lamps rfl rfl

theorem execCoilPulse_leavesLamps (dt : Time) (s : State) : LeavesLamps s (execCoilPulse dt s) :=
  live_leavesLamps fun _ => ite_lamps rfl rfl

theorem execGateExpiry_leavesLamps (dt : Time) (s : State) : LeavesLamps s (execGateExpiry dt s) :=
  live_leavesLamps fun u => by
    split
    · refine (targets_lamps (handReading_touches _ _ _)).trans ?_
      rfl
    · rfl

theorem execGaugeUpdate_leavesLamps (dt : Time) (s : State) : LeavesLamps s (execGaugeUpdate dt s) :=
  live_leavesLamps fun u => by
    split
    · refine (gauges_lamps (updateGauges_touches _)).trans ?_
      rfl
    · rfl

theorem execIdentify_leavesLamps (dt : Time) (p : PortId) (s : State) : LeavesLamps s (execIdentify dt p s) :=
  live_leavesLamps fun u => by
    split
    · exact (releasePool_lamps _ p).trans (answer_lamps u p _ _ _)
    · rfl

theorem execBadRequest_leavesLamps (dt : Time) (p : PortId) (s : State) : LeavesLamps s (execBadRequest dt p s) :=
  live_leavesLamps fun u => by
    split
    · exact (releasePool_lamps _ p).trans (answer_lamps u p _ _ _)
    · rfl

theorem execReadTable_leavesLamps (dt : Time) (p : PortId) (s : State) : LeavesLamps s (execReadTable dt p s) :=
  live_leavesLamps fun u => by
    split
    · exact request_lamps (readTable_lamps u p _ _ _ _)
    · rfl

theorem execReadState_leavesLamps (dt : Time) (p : PortId) (s : State) : LeavesLamps s (execReadState dt p s) :=
  live_leavesLamps fun u => by
    split
    · refine request_lamps ?_
      split
      · exact answer_lamps u p _ _ _
      · exact answer_lamps u p _ _ _
    · rfl

theorem execReadCounters_leavesLamps (dt : Time) (p : PortId) (s : State) : LeavesLamps s (execReadCounters dt p s) :=
  live_leavesLamps fun u => by
    split
    · exact request_lamps (readCounters_lamps u p _ _ _)
    · rfl

theorem execStore_leavesLamps (dt : Time) (p : PortId) (s : State) : LeavesLamps s (execStore dt p s) :=
  live_leavesLamps fun u => by
    split
    · exact request_lamps (beginStore_lamps u p _)
    · rfl

theorem execStoreComplete_leavesLamps (dt : Time) (verified : Bool) (s : State) : LeavesLamps s (execStoreComplete dt verified s) :=
  live_leavesLamps fun u => by
    split
    · exact ite_lamps (State.setPort_lamps _ _ _) (State.setPort_lamps _ _ _)
    · rfl
    · rfl

/-- Every other command leaves the load block. -/
theorem exec_leavesLamps {c : Instr} (h : ¬MovesLamps c) (s : State) : LeavesLamps s (exec c s) := by
  cases c with
  | powerOn | brownOut | frameSent | collision | restart | routeWalk | actionTake | chainResume | loadFadeExpiry | coolOffExpiry | refreshExpiry |
    reportTimerExpiry | flasherTick | writeTable | clearLatch | loadLimp => exact absurd trivial h
  | lowSupplyHold dt => exact execLowSupplyHold_leavesLamps dt s
  | feedFellBelow2V5 dt => exact execFeedFellBelow2V5_leavesLamps dt s
  | bitsDisturbedInStorage dt a i d => exact execBitsDisturbedInStorage_leavesLamps dt a i d s
  | ignitionInputChange dt on => exact execIgnitionInputChange_leavesLamps dt on s
  | byteReceived dt p edge => exact execByteReceived_leavesLamps dt p edge s
  | frameEnd dt p => exact execFrameEnd_leavesLamps dt p s
  | skipEnd dt p => exact execSkipEnd_leavesLamps dt p s
  | transmitStart dt p => exact execTransmitStart_leavesLamps dt p s
  | sentByteReadBackEqual dt p => exact execSentByteReadBackEqual_leavesLamps dt p s
  | transitCopy dt p => exact execTransitCopy_leavesLamps dt p s
  | waitExpiry dt k => exact execWaitExpiry_leavesLamps dt k s
  | watchExpiry dt src => exact execWatchExpiry_leavesLamps dt src s
  | ignitionDebounceExpiry dt => exact execIgnitionDebounceExpiry_leavesLamps dt s
  | conversion dt c0 c1 c2 c3 => exact execConversion_leavesLamps dt c0 c1 c2 c3 s
  | staleExpiry dt d => exact execStaleExpiry_leavesLamps dt d s
  | coilPulse dt => exact execCoilPulse_leavesLamps dt s
  | gateExpiry dt => exact execGateExpiry_leavesLamps dt s
  | gaugeUpdate dt => exact execGaugeUpdate_leavesLamps dt s
  | identify dt p => exact execIdentify_leavesLamps dt p s
  | readTable dt p => exact execReadTable_leavesLamps dt p s
  | readState dt p => exact execReadState_leavesLamps dt p s
  | readCounters dt p => exact execReadCounters_leavesLamps dt p s
  | store dt p => exact execStore_leavesLamps dt p s
  | badRequest dt p => exact execBadRequest_leavesLamps dt p s
  | storeComplete dt verified => exact execStoreComplete_leavesLamps dt verified s

/-! ## The action engine -/

/-- A walk changes requests and ramp flags of the loads alone, which no order of the load block reads (R83). -/
theorem walk_kept {s u : State} (h : TouchesWalk s u) : Kept s u := by
  obtain ⟨t, e, n, v, rfl, _, _, requested⟩ := h
  refine .of_records (fun w l => ?_) (fun l => ?_) fun _ => rfl
  · show (v[l]).Wf
    rw [requested l]
    exact w l
  · show (v[l]).binding = _ ∧ (v[l]).effective = _
    rw [requested l]
    exact ⟨rfl, rfl⟩

theorem commitGroup_kept (before s : State) : Kept s (commitGroup before s) := by
  have settled : Kept s (ActionChains.settled before s) := .of_lamps (by rw [(ActionChains.settled_eq before s).2])
  rw [ActionChains.commitGroup_eq]
  split
  · exact settled.trans (resolveAll_kept _)
  · exact settled

theorem runWalk_kept (ch : Chain) (i : Fin 256) (s : State) : Kept s (runWalk ch i s) :=
  ((walk_kept (walk_walk ch 32 i s)).trans (commitGroup_kept _ _)).trans (.of_lamps rfl)

theorem takeChannel_kept (s : State) (c : Fin 32) (e : EventEntry) (edge : Edge) : Kept s (takeChannel s c e edge) := by
  have taken : Kept s (s.updChannel c fun x => { x with pending := none }) := .of_lamps rfl
  have cancelled : Kept s
      (if (s.events.channels[c]).inService = true then cancelChain (s.updChannel c fun x => { x with pending := none }) c
        else s.updChannel c fun x => { x with pending := none }) := by
    split
    · exact taken.trans (walk_kept (cancelChain_walk _ c))
    · exact taken
  unfold takeChannel
  simp only
  split
  · exact cancelled.trans (runWalk_kept _ _ _)
  · exact cancelled.trans (.of_lamps rfl)

theorem chooseFrom_kept : ∀ (l : List (Fin 32)) (s : State), Kept s (chooseFrom l s) := by
  intro l
  induction l with
  | nil => intro s; exact .of_lamps rfl
  | cons c l ih =>
    intro s
    have read := withTables_kept s (s.tables.event c).1
    have dropped (u : State) : Kept u (u.updChannel c fun x => { x with pending := none }) := .of_lamps rfl
    simp only [chooseFrom]
    split
    · exact ih s
    · split
      · exact ih s
      · split
        · exact (read.trans (dropped _)).trans (ih _)
        · split
          · exact read.trans (takeChannel_kept _ _ _ _)
          · exact read.trans (ih _)

theorem resumeSlot_kept (s : State) (k : Fin 4) : Kept s (resumeSlot s k) := by
  unfold resumeSlot
  simp only
  split
  · exact (walk_kept (endChain_walk _ _)).trans (.of_lamps rfl)
  · exact runWalk_kept _ _ _

/-! ## The route walk -/

theorem hear_lamps (s : State) (src : Fin 64) (e : DirectoryEntry) : (hear s src e).lamps = s.lamps := by
  unfold hear
  simp only
  split
  · refine (events_lamps (reportTo_touches _ _ _)).trans ?_
    rfl
  · rfl

theorem routeReport_kept (s : State) (f : Frame) : Kept s (routeReport s f) := by
  have matched := withTables_kept s (matchPod f.src (List.finRange 12) s.tables).1
  unfold routeReport
  simp only
  split
  · split
    · exact matched.trans (takeReport_kept _ _ _)
    · exact matched.trans (.of_lamps rfl)
  · exact matched.trans (.of_lamps rfl)

theorem forward_lamps (s : State) (p : PortId) (e : RouteEntry) (f : Frame) : (forward s p e f).lamps = s.lamps := s.setPort_lamps _ _

theorem performRoute_kept (s : State) (p : PortId) (e : RouteEntry) (f : Frame) : Kept s (performRoute s p e f) := by
  have also (u : State) (h : Kept s u) : Kept s (if e.alsoForward then forward u p e f else u) :=
    h.trans (.of_lamps (ite_lamps (forward_lamps u p e f) rfl))
  unfold performRoute
  simp only
  split
  · exact also _ (.of_lamps (events_lamps (routeSwitch_touches _ _ _)))
  · exact also _ (.of_lamps (samples_lamps (routeSender_touches _ _ _)))
  · exact also _ (routeReport_kept s f)
  · exact .of_lamps (forward_lamps s p e f)
  · exact .refl s

theorem walkRoute_kept (s : State) (p : PortId) (e : DirectoryEntry) (f : Frame) : Kept s (walkRoute s p e f) := by
  unfold walkRoute
  split
  · exact .of_lamps rfl
  · next i _ =>
    have found := withTables_kept s (findRoute f.kind 8 i.val s.tables).1
    simp only
    split
    · exact found.trans (performRoute_kept _ _ _ _)
    · exact found.trans (.of_lamps rfl)
    · exact found

theorem routeFrame_kept (s : State) (p : PortId) (f : Frame) : Kept s (routeFrame s p f) := by
  have read := withTables_kept s (s.tables.directory f.src).1
  unfold routeFrame
  simp only
  split
  · exact read
  · split
    · exact (read.trans (.of_lamps (hear_lamps _ _ _))).trans (walkRoute_kept _ _ _ _)
    · exact read.trans (.of_lamps rfl)

/-! ## Expiries and services -/

/-- One load's trips rewritten and the load resolved. -/
theorem updLoad_resolve_kept (s : State) (l : Fin 32) {f : LoadRecord → LoadRecord} (h : (s.lamps.loads[l]).Wf → TripsWf (f s.lamps.loads[l])) :
    Kept s (resolveLoads (s.updLoad l f) false [l]) := by
  refine ⟨fun w => resolveLoads_loadsWf false (fun j => ?_) fun j out => ?_, fun _ => resolveLoads_podsMerged _ _ _⟩
  · rw [State.updLoad_lamps, upd_get]
    split
    · next e => subst e; exact h (w l)
    · exact tripsWf_of_wf (w j)
  · rw [State.updLoad_lamps, upd_other _ _ (by simpa [eq_comm] using out)]
    exact w j

/-- A cool-off that ends leaves its load NORMAL (R109). -/
theorem coolOff_tripsWf {r : LoadRecord} (w : r.Wf) (cools : r.coolOff.isSome = true) :
    TripsWf { r with coolOff := none, trip := if r.trip = .cooling then .normal else r.trip } := by
  obtain ⟨most, counted, _, _, timed, _⟩ := w
  have cooling := timed.mp cools
  simp only [TripsWf, cooling, if_true]
  exact ⟨most, fun _ => counted (by simp [cooling]), by simp⟩

/-- Between two sets of load records proof statuses alone differ. -/
abbrev Forgotten (v w : Vector LoadRecord 32) : Prop := ∀ l : Fin 32, w[l] = { v[l] with proof := (w[l]).proof }

theorem forgetProof_forgotten (P : Fin 12) (v : Vector LoadRecord 32) (l : Fin 32) : Forgotten v (forgetProof P v l) := by
  intro j
  unfold forgetProof
  split
  · split
    · rw [upd_get]
      split <;> rfl
    · rfl
  · rfl

theorem foldl_forgetProof_forgotten (P : Fin 12) (v : Vector LoadRecord 32) (ls : List (Fin 32)) : Forgotten v (ls.foldl (forgetProof P) v) :=
  foldl_rel (R := Forgotten) (fun _ _ => rfl) (fun h k l => by rw [k l, h l]) (forgetProof_forgotten P) ls v

/-- The loads of a pod that falls silent lose their proof status alone (R104). -/
theorem forgotten_kept {s : State} {w : Vector LoadRecord 32} (h : Forgotten s.lamps.loads w) :
    Kept s { s with lamps := { s.lamps with loads := w } } := by
  refine .of_records (fun wf l => ?_) (fun l => ?_) fun _ => rfl
  · show (w[l]).Wf
    rw [h l]
    exact wf l
  · show (w[l]).binding = _ ∧ (w[l]).effective = _
    rw [h l]
    exact ⟨rfl, rfl⟩

/-- A tick moves the load block by its resolution alone (R115, R117). -/
theorem tickFlasher_kept (s : State) (t : Time) : Kept s (tickFlasher s t) := by
  have ticked : Kept s { s with flasher := { s.flasher with counter := s.flasher.counter - 1, tick := some (t + Config.ms10) } } := .of_lamps rfl
  have phase (u : State) (phase : FlasherState) : Kept u (startPhase u phase) := .of_lamps (flasher_lamps (startPhase_touches u phase))
  unfold tickFlasher
  simp only
  split
  · exact (ticked.trans (phase _ _)).trans (resolveAll_kept _)
  · exact ticked

theorem writeTable_kept (s : State) (a : Area) (index : Nat) (ws : List Word16) : Kept s (writeTable s a index ws) := by
  have written := withTables_kept s { s.tables.writeWords (address a index) ws with source := .modified }
  unfold writeTable
  simp only
  split
  · exact written.trans (.of_lamps (eventsWritten_lamps _ _))
  · exact written.trans (resolveAll_kept _)
  · exact written

theorem loadLimp_kept (s : State) (v : LimpVariant) : Kept s (loadLimp s v) := by
  unfold loadLimp
  exact ((withTables_kept s _).trans (.of_lamps (eventsWritten_lamps _ _))).trans (resolveAll_kept _)

/-- The state of a CLEAR-LATCH with the trips of the loads named cleared, and those loads still to resolve (R167). -/
def latchesCleared (s : State) (ls : List (Fin 32)) : State :=
  { s with lamps := { s.lamps with loads := ls.foldl (fun v l => upd v l LoadRecord.clearTrip) s.lamps.loads } }

theorem clearLatches_eq (s : State) (ls : List (Fin 32)) : clearLatches s ls = resolveLoads (latchesCleared s ls) false ls := rfl

/-- The loads named have their trips cleared and every other stands (R167). -/
theorem latchesCleared_get (s : State) (ls : List (Fin 32)) (l : Fin 32) :
    (latchesCleared s ls).lamps.loads[l] = if l ∈ ls then (s.lamps.loads[l]).clearTrip else s.lamps.loads[l] :=
  ChainSlots.foldl_upd_get (f := LoadRecord.clearTrip) (fun _ => rfl) l ls s.lamps.loads

theorem clearLatches_kept (s : State) (ls : List (Fin 32)) : Kept s (clearLatches s ls) := by
  rw [clearLatches_eq]
  refine ⟨fun w => resolveLoads_loadsWf false (fun l => ?_) fun l out => ?_, fun _ => resolveLoads_podsMerged _ _ _⟩
  · rw [latchesCleared_get]
    split
    · exact clearTrip_tripsWf _
    · exact tripsWf_of_wf (w l)
  · rw [latchesCleared_get, if_neg out]
    exact w l

/-! ## The resets -/

/-- A load record after a reset is in order (R93). -/
theorem afterReset_wf : LoadRecord.afterReset.Wf := by simp [LoadRecord.Wf, LoadRecord.afterReset]

/-- The reads a reset makes for routes, events and descriptors leave the load block (R36, R55, R131). -/
theorem resetReads_lamps (s : State) : (resetSampler (resetEvents (resetRoutes s))).lamps = s.lamps := by
  obtain ⟨_, _, sampler, _⟩ := resetSampler_touches (resetEvents (resetRoutes s))
  obtain ⟨_, _, events, _⟩ := resetEvents_touches (resetRoutes s)
  obtain ⟨_, _, routes, _⟩ := resetRoutes_touches s
  rw [sampler, events, routes]

/-- Every reset leaves the load block in order: its records are set, and the one resolution merges the pods (R93). -/
theorem resetBlocks_ordered (keep : Bool) (s : State) : LoadsWf (resetBlocks keep s).lamps.loads ∧ (resetBlocks keep s).PodsMerged := by
  have cleared : LoadsWf (resetSampler (resetEvents (resetRoutes (clearBlocks keep s)))).lamps.loads := by
    rw [resetReads_lamps]
    intro l
    simp only [clearBlocks, Fin.getElem_fin, Vector.getElem_replicate]
    exact afterReset_wf
  unfold resetBlocks resetLamps
  refine ⟨(resolveAll_kept _).loads (Kept.loads ?_ cleared), resolveAll_podsMerged _⟩
  exact foldl_rel Kept.refl Kept.trans (fun s P => (startRefresh_kept s P).trans (startReport_kept _ P)) _ _

theorem resetBlocks_kept (keep : Bool) (r s : State) : Kept r (resetBlocks keep s) :=
  ⟨fun _ => (resetBlocks_ordered keep s).1, fun _ => (resetBlocks_ordered keep s).2⟩

/-! ## The freeing of a queue entry -/

theorem setRefillOwed_kept (s : State) (p : PortId) (b : Bool) : Kept s (s.setRefillOwed p b) := .of_lamps (s.setRefillOwed_lamps p b)

theorem settleRefill_kept (s : State) (p : PortId) : Kept s (settleRefill s p) :=
  (setRefillOwed_kept s p false).trans (refillFrom_marked p _ _).kept

theorem owedRefill_kept (s : State) (p : PortId) : Kept s (owedRefill s p) := by
  unfold owedRefill
  split
  · exact settleRefill_kept s p
  · exact .refl s

/-- The restart that a freed reply was waited for (R171). -/
theorem afterFreeing_kept (e : QueueEntry) (s : State) : Kept s (afterFreeing e s) := by
  unfold afterFreeing
  split
  · exact resetBlocks_kept true s s
  · exact .refl s

theorem markDirty_kept (s : State) (pod : Option (Fin 12)) : Kept s (markDirty s pod) := by
  unfold markDirty
  split
  · exact (updPod_marked s _ true).kept
  · exact .refl s

theorem sendHead_kept {refilled : State → State} (s : State) (p : PortId) (h : ∀ u, Kept u (refilled u)) : Kept s (sendHead s p refilled) := by
  unfold sendHead
  simp only
  split
  · exact (Kept.trans (.of_lamps (s.setPort_lamps p _)) (h _)).trans (afterFreeing_kept _ _)
  · exact .refl s

theorem abandonHead_kept {refilled : State → State} (s : State) (p : PortId) (h : ∀ u, Kept u (refilled u)) :
    Kept s (abandonHead s p refilled) := by
  unfold abandonHead
  simp only
  split
  · exact ((Kept.trans (.of_lamps (s.setPort_lamps p _)) (markDirty_kept _ _)).trans (h _)).trans (afterFreeing_kept _ _)
  · exact .refl s

/-! ## The commands that move the load block -/

/-- What a command answers, if it answers a state, keeps the load block in order. -/
abbrev KeepsOrder (s : State) (r : Result) : Prop := ∀ t, r = .next t → Kept s t

/-- A step of the blocks that keeps the load block in order. -/
theorem live_keepsOrder {dt : Time} {s : State} {f : State → State} (h : ∀ u, Kept u (f u)) : KeepsOrder s (live dt s f) := by
  intro t e
  cases e
  have later : Kept s (s.elapse dt) := .of_lamps rfl
  split
  · exact later.trans (h _)
  · exact later

/-- A request taken keeps the load block in order where its performing does (R159). -/
theorem request_kept {s : State} {p : PortId} {f : Frame} {g : State → State} (h : Kept s (g s)) :
    Kept s ((unlessBusy s p f g).releasePool p) := by
  refine .trans ?_ (.of_lamps (releasePool_lamps _ p))
  unfold unlessBusy
  split
  · exact h
  · exact .of_lamps (answer_lamps s p f _ _)

theorem execPowerOn_keepsOrder (dt : Time) (rise : FeedRise) (s : State) : KeepsOrder s (execPowerOn dt rise s) := by
  intro t e
  unfold execPowerOn at e
  cases e
  split
  · split
    · exact resetBlocks_kept _ _ _
    · exact .of_lamps rfl
  · exact .of_lamps rfl

theorem execBrownOut_keepsOrder (dt : Time) (s : State) : KeepsOrder s (execBrownOut dt s) := by
  intro t e
  unfold execBrownOut at e
  cases e
  split
  · exact resetBlocks_kept _ _ _
  · exact .of_lamps rfl

theorem execFrameSent_keepsOrder (dt : Time) (part : Freeing) (s : State) : KeepsOrder s (execFrameSent dt part s) :=
  live_keepsOrder fun u => by
    cases part with
    | withRefill p => exact sendHead_kept u p fun v => settleRefill_kept v p
    | alone p => exact sendHead_kept u p fun v => setRefillOwed_kept v p true
    | refill p => exact owedRefill_kept u p

theorem execCollision_keepsOrder (dt : Time) (part : Freeing) (s : State) : KeepsOrder s (execCollision dt part s) :=
  live_keepsOrder fun u => by
    cases part with
    | withRefill p => exact abandonHead_kept u p fun v => settleRefill_kept v p
    | alone p => exact abandonHead_kept u p fun v => setRefillOwed_kept v p true
    | refill p => exact owedRefill_kept u p

theorem execRouteWalk_keepsOrder (dt : Time) (p : PortId) (s : State) : KeepsOrder s (execRouteWalk dt p s) :=
  live_keepsOrder fun u => by
    split
    · exact (routeFrame_kept u p _).trans (.of_lamps (releasePool_lamps _ p))
    · exact .refl u

theorem execActionTake_keepsOrder (dt : Time) (s : State) : KeepsOrder s (execActionTake dt s) :=
  live_keepsOrder fun u => by
    split
    · exact .refl u
    · exact chooseFrom_kept _ u

theorem execChainResume_keepsOrder (dt : Time) (s : State) : KeepsOrder s (execChainResume dt s) :=
  live_keepsOrder fun u => by
    split
    · exact resumeSlot_kept u _
    · exact .refl u

theorem execLoadFadeExpiry_keepsOrder (dt : Time) (s : State) : KeepsOrder s (execLoadFadeExpiry dt s) :=
  live_keepsOrder fun u => by
    split
    · have timed : Kept u { u with lamps := { u.lamps with fadeTimer := u.lamps.fadeTimer + Config.ms100 } } :=
        .of_records id (fun _ => ⟨rfl, rfl⟩) fun _ => rfl
      exact timed.trans (resolveLoads_kept _ true _)
    · exact .refl u

theorem execRefreshExpiry_keepsOrder (dt : Time) (P : Fin 12) (s : State) : KeepsOrder s (execRefreshExpiry dt P s) :=
  live_keepsOrder fun u => by
    split
    · exact (produceLampcmd_marked u P).kept.trans (startRefresh_kept _ P)
    · exact .refl u

theorem execCoolOffExpiry_keepsOrder (dt : Time) (l : Fin 32) (s : State) : KeepsOrder s (execCoolOffExpiry dt l s) :=
  live_keepsOrder fun u => by
    split
    · next expired =>
      refine updLoad_resolve_kept u l (fun w => coolOff_tripsWf w ?_)
      obtain ⟨t, runs, _⟩ := EventChannels.due_iff.mp expired
      rw [runs]
      rfl
    · exact .refl u

theorem execReportTimerExpiry_keepsOrder (dt : Time) (P : Fin 12) (s : State) : KeepsOrder s (execReportTimerExpiry dt P s) :=
  live_keepsOrder fun u => by
    split
    · exact (updPod_kept u P (f := fun r => { r with state := .silent, report := none }) fun _ => rfl).trans
        (forgotten_kept (foldl_forgetProof_forgotten P _ _))
    · exact .refl u

theorem execFlasherTick_keepsOrder (dt : Time) (s : State) : KeepsOrder s (execFlasherTick dt s) :=
  live_keepsOrder fun u => by
    split
    · split
      · exact tickFlasher_kept u _
      · exact .refl u
    · exact .refl u

theorem execWriteTable_keepsOrder (dt : Time) (p : PortId) (s : State) : KeepsOrder s (execWriteTable dt p s) :=
  live_keepsOrder fun u => by
    split
    · refine request_kept ?_
      split
      · exact .of_lamps (answer_lamps u p _ _ _)
      · split
        · exact (writeTable_kept u _ _ _).trans (.of_lamps (answer_lamps _ p _ _ _))
        · exact .of_lamps (answer_lamps u p _ _ _)
    · exact .refl u

theorem execClearLatch_keepsOrder (dt : Time) (p : PortId) (s : State) : KeepsOrder s (execClearLatch dt p s) :=
  live_keepsOrder fun u => by
    split
    · refine request_kept ?_
      split
      · exact (clearLatches_kept u _).trans (.of_lamps (answer_lamps _ p _ _ _))
      · exact .of_lamps (answer_lamps u p _ _ _)
    · exact .refl u

theorem execLoadLimp_keepsOrder (dt : Time) (p : PortId) (s : State) : KeepsOrder s (execLoadLimp dt p s) :=
  live_keepsOrder fun u => by
    split
    · refine request_kept ?_
      split
      · exact .of_lamps (answer_lamps u p _ _ _)
      · split
        · exact (loadLimp_kept u _).trans (.of_lamps (answer_lamps _ p _ _ _))
        · exact .of_lamps (answer_lamps u p _ _ _)
    · exact .refl u

theorem execRestart_keepsOrder (dt : Time) (p : PortId) (s : State) : KeepsOrder s (execRestart dt p s) :=
  live_keepsOrder fun u => by
    split
    · refine request_kept ?_
      unfold beginRestart
      simp only
      split
      · exact resetBlocks_kept _ _ _
      · exact .of_lamps (u.setPort_lamps p _)
    · exact .refl u

/-- Every command keeps the load block in order. -/
theorem exec_keepsOrder (c : Instr) (s : State) : KeepsOrder s (exec c s) := by
  by_cases h : MovesLamps c
  · cases c with
    | powerOn dt rise => exact execPowerOn_keepsOrder dt rise s
    | brownOut dt => exact execBrownOut_keepsOrder dt s
    | frameSent dt part => exact execFrameSent_keepsOrder dt part s
    | collision dt part => exact execCollision_keepsOrder dt part s
    | restart dt p => exact execRestart_keepsOrder dt p s
    | routeWalk dt p => exact execRouteWalk_keepsOrder dt p s
    | actionTake dt => exact execActionTake_keepsOrder dt s
    | chainResume dt => exact execChainResume_keepsOrder dt s
    | loadFadeExpiry dt => exact execLoadFadeExpiry_keepsOrder dt s
    | coolOffExpiry dt l => exact execCoolOffExpiry_keepsOrder dt l s
    | refreshExpiry dt P => exact execRefreshExpiry_keepsOrder dt P s
    | reportTimerExpiry dt P => exact execReportTimerExpiry_keepsOrder dt P s
    | flasherTick dt => exact execFlasherTick_keepsOrder dt s
    | writeTable dt p => exact execWriteTable_keepsOrder dt p s
    | clearLatch dt p => exact execClearLatch_keepsOrder dt p s
    | loadLimp dt p => exact execLoadLimp_keepsOrder dt p s
    | _ => exact h.elim
  · exact fun t e => .of_lamps (exec_leavesLamps h s t e)

/-- A step keeps the load block in order: an idle step changes nothing, and the command taken keeps it. -/
theorem step_kept {s t : State} (e : step s = .next t) : Kept s t := by
  unfold step at e
  split at e
  · cases e
    exact .refl s
  · next c rest _ =>
    have taken : Kept s { s with pending := rest } := .of_lamps rfl
    exact taken.trans (exec_keepsOrder c _ t e)

/-- Settles O38, by what each command can do to a load record. -/
theorem stepKeepsLoads : Obligations.StepKeepsLoads := fun _ _ w e => (step_kept e).loads w

/-- Settles O39, by the merge that ends every resolution event. -/
theorem stepKeepsPodsMerged : Obligations.StepKeepsPodsMerged := fun _ _ w e => (step_kept e).pods w

end Sys2Proof.Machine.LampSteps
end

section
/-! PROOFS. CLEAR-LATCH (R167): the loads its operand names, their trips cleared and each resolved, and its two replies. -/

namespace Sys2Proof.Machine.ClearLatch

open LampPods LampSteps

/-! ## The loads an operand names -/

/-- An operand names a load: 0xFF names all, and any other value the load of that number (R167, R182). -/
abbrev Names (v : Byte) (l : Fin 32) : Prop := v = 0xFF#8 ∨ v.toNat = l.val

/-- The loads an operand names, in order. -/
def named (v : Byte) : List (Fin 32) := (List.finRange 32).filter fun l => decide (v = 0xFF#8) || decide (v.toNat = l.val)

theorem mem_named {v : Byte} {l : Fin 32} : l ∈ named v ↔ Names v l := by
  simp only [named, List.mem_filter, List.mem_finRange, true_and, Bool.or_eq_true, decide_eq_true_eq]

theorem named_nodup (v : Byte) : (named v).Nodup := (List.nodup_finRange 32).filter _

/-- A value within range names the loads that a CLEAR-LATCH of it clears (R167, R182). -/
theorem latchLoads_named {v : Byte} (h : v.toNat < 32 ∨ v = 0xFF#8) : latchLoads v.toNat = some (named v) := by
  by_cases all : v = 0xFF#8
  · subst all
    have every : named 0xFF#8 = List.finRange 32 := List.filter_eq_self.mpr fun _ _ => rfl
    rw [every]
    rfl
  · have small : v.toNat < 32 := h.resolve_right all
    have one : named v = [⟨v.toNat, small⟩] := by
      refine List.perm_singleton.mp ((List.perm_ext_iff_of_nodup (named_nodup v) (List.nodup_cons.mpr ⟨List.not_mem_nil, List.nodup_nil⟩)).mpr fun l => ?_)
      rw [mem_named, List.mem_singleton, Fin.ext_iff]
      exact (or_iff_right all).trans eq_comm
    have other : v.toNat ≠ 0xFF := by omega
    simp only [latchLoads, if_neg other, within, dif_pos small, Option.map_some, one]

/-- Any other value names none (R167). -/
theorem latchLoads_none {v : Byte} (large : 32 ≤ v.toNat) (other : v ≠ 0xFF#8) : latchLoads v.toNat = none := by
  have notAll : v.toNat ≠ 0xFF := fun e => other (BitVec.eq_of_toNat_eq e)
  simp only [latchLoads, if_neg notAll, within, dif_neg (Nat.not_lt.mpr large), Option.map_none]

/-! ## The command -/

section Serves

variable {dt : Time} {p : PortId} {s : State} {f : Frame} {v : Byte}

theorem request_clearLatch (serves : s.Serves p .serviceRequest f) (payload : f.payload = [6#8, v]) :
    (s.port p).request = some (f, some (.clearLatch v.toNat)) := by
  rw [serves.request, payload]
  rfl

/-- A CLEAR-LATCH taken by an idle engine clears and resolves the loads it names, and replies DONE (R167). -/
theorem execClearLatch_done {ls : List (Fin 32)} (serves : s.Serves p .serviceRequest f) (idle : s.service = .idle) (payload : f.payload = [6#8, v])
    (names : latchLoads v.toNat = some ls) :
    execClearLatch dt p s = .next ((answer (clearLatches (s.elapse dt) ls) p f .done []).releasePool p) := by
  simp only [execClearLatch, live_running serves.1, State.port_elapse, request_clearLatch serves payload, unlessBusy, State.elapse_service, idle, names,
    if_true]

/-- One that names no load replies BAD-RANGE (R167). -/
theorem execClearLatch_badRange (serves : s.Serves p .serviceRequest f) (idle : s.service = .idle) (payload : f.payload = [6#8, v])
    (names : latchLoads v.toNat = none) :
    execClearLatch dt p s = .next ((answer (s.elapse dt) p f .badRange []).releasePool p) := by
  simp only [execClearLatch, live_running serves.1, State.port_elapse, request_clearLatch serves payload, unlessBusy, State.elapse_service, idle, names,
    if_true]

end Serves

/-- A reply of one status byte to a CLEAR-LATCH, its pool released (R160). -/
theorem reply_clearLatch {u s : State} (p : PortId) {f : Frame} {v : Byte} (status : Status) (payload : f.payload = [6#8, v])
    (straps : u.straps = s.straps) :
    (answer u p f status []).releasePool p =
      u.setPort p ((u.port p).replied ⟨f.src, s.hubAddress, 5, [6#8, BitVec.ofNat 8 status.code]⟩) := by
  rw [answer_releasePool]
  simp only [replyFrame, requestCode, payload, List.headD_cons, State.hubAddress, straps]

/-- Settles O54: the operand's range, then the loads named with their trips cleared, and their resolution. -/
theorem clearLatchClearsTrips : Obligations.ClearLatchClearsTrips := by
  intro dt p s f v serves idle payload reply
  refine ⟨fun large other => ?_, fun inRange => ?_⟩
  · exact (execClearLatch_badRange serves idle payload (latchLoads_none large other)).trans
      (congrArg Host.Outcome.next (reply_clearLatch p .badRange payload rfl))
  · have resolution := clearLatches_eq (s.elapse dt) (named v)
    obtain ⟨t, a, b, lamps, touched, reads, fade⟩ := resolveLoads_touches (latchesCleared (s.elapse dt) (named v)) false (named v)
    refine ⟨clearLatches (s.elapse dt) (named v), latchesCleared (s.elapse dt) (named v), ?_, ?_, rfl, fun l => ?_, resolution, ?_, ?_, fun P => ?_,
      fun l => ?_⟩
    · refine (execClearLatch_done serves idle payload (latchLoads_named inRange)).trans
        (congrArg Host.Outcome.next (reply_clearLatch p .done payload ?_))
      rw [resolution, touched]
      rfl
    · rw [resolution, touched]
      exact reads.1
    · rw [latchesCleared_get]
      simp only [mem_named]
      rfl
    · rw [resolution, touched]
      rfl
    · rw [resolution, touched]
      exact fade
    · rw [resolution]
      exact resolveLoads_pods (latchesCleared (s.elapse dt) (named v)) false (named v) P
    · rw [resolution, ActionChains.resolveLoads_get _ _ (named_nodup v), latchesCleared_get]
      simp only [mem_named]
      split
      · rw [ActionChains.resolved]
        rfl
      · rfl

end Sys2Proof.Machine.ClearLatch
end

section
/-! PROOFS. The flasher's phases (chapter 7): what a phase starts with (R117, R121, R122), and what one tick does (R115). -/

namespace Sys2Proof.Machine.FlasherPhases

open ActionChains

/-! ## The start of a phase -/

/-- The parameter that gives a phase its length (R6). -/
def lengthParam (phase : FlasherState) : Param := if phase = .lit then .litLength else .darkLength

/-- The flasher at the start of a phase: the rate as judged, and the phase's length as read and adjusted (R117, R121, R122). -/
theorem startPhase_flasher (s : State) (phase : FlasherState) :
    (startPhase s phase).flasher =
      { s.flasher with
        state := phase, counter := phaseLength (judgeRate s).2 (s.tables.peekParam (lengthParam phase))
        loaded := phaseLength (judgeRate s).2 (s.tables.peekParam (lengthParam phase)), rate := (judgeRate s).2 } := by
  have length : ((judgeRate s).1.param (lengthParam phase)).2 = s.tables.peekParam (lengthParam phase) := by
    rw [TableStore.param_value, (judgeRate_reads s).peekParam]
  rw [← length]
  rfl

/-- A load that counts makes the rate FAST, and the length is halved, rounded up (R121, R122). -/
theorem judgeRate_counted {s : State} (counted : ∃ l, Counts s.tables s.lampEnv s.lamps.loads l) (n : Nat) :
    (judgeRate s).2 = .fast ∧ phaseLength (judgeRate s).2 n = (n + 1) / 2 := by
  simp only [(judgeRate_fast_iff s).mpr counted, phaseLength, and_self]

/-- Where no load counts the rate is NORMAL, and the length stands (R121, R122). -/
theorem judgeRate_uncounted {s : State} (uncounted : ∀ l, ¬Counts s.tables s.lampEnv s.lamps.loads l) (n : Nat) :
    (judgeRate s).2 = .normal ∧ phaseLength (judgeRate s).2 n = n := by
  have normal : (judgeRate s).2 = .normal := by
    cases rate : (judgeRate s).2 with
    | normal => rfl
    | fast =>
      obtain ⟨l, counts⟩ := (judgeRate_fast_iff s).mp rate
      exact absurd counts (uncounted l)
  simp only [normal, phaseLength, and_self]

/-! ## The tick -/

/-- The state of a tick with its counter taken down and its next moment set (R115). -/
def countedDown (s : State) (d : Time) : State :=
  { s with flasher := { s.flasher with counter := s.flasher.counter - 1, tick := some (d + Config.ms10) } }

/-- A tick above 1 counts down alone (R115). -/
theorem tickFlasher_above {s : State} (d : Time) (above : 1 < s.flasher.counter) : tickFlasher s d = countedDown s d :=
  if_neg (by show ¬s.flasher.counter - 1 = 0; omega)

/-- The state in which a tick at 1 resolves the loads: the phase after this one has started (R117). -/
def nextPhase (s : State) (d : Time) : State := startPhase (countedDown s d) s.flasher.state.after

/-- A tick at 1 starts the next phase, and resolves all loads under it (R117). -/
theorem tickFlasher_one {s : State} (d : Time) (one : s.flasher.counter = 1) : tickFlasher s d = resolveAll (nextPhase s d) :=
  if_pos (by show s.flasher.counter - 1 = 0; omega)

/-- The start of the next phase rewrites the flasher and reads the store. -/
theorem nextPhase_eq (s : State) (d : Time) :
    s.tables.Reads (nextPhase s d).tables ∧ nextPhase s d = { s with tables := (nextPhase s d).tables, flasher := (nextPhase s d).flasher } := by
  obtain ⟨t, f, started, reads⟩ := startPhase_touches (countedDown s d) s.flasher.state.after
  rw [nextPhase, started]
  exact ⟨reads, rfl⟩

/-- FLASHER_TICK on its occasion is one tick, from the tick timer's moment (R115, log 3). -/
theorem execFlasherTick_due {dt : Time} {s : State} {d : Time} (run : s.power = .running) (runs : s.flasher.state ≠ .idle)
    (timer : s.flasher.tick = some d) (expired : d ≤ s.now + dt) : execFlasherTick dt s = .next (tickFlasher (s.elapse dt) d) := by
  have occasion : d ≤ (s.elapse dt).now ∧ (s.elapse dt).flasher.state ≠ .idle := ⟨expired, runs⟩
  simp only [execFlasherTick, live_running run, State.elapse_flasher, timer]
  exact congrArg Host.Outcome.next (if_pos occasion)

/-- The phase after one that runs (R117). -/
theorem after_of_runs {phase : FlasherState} (runs : phase ≠ .idle) : phase.after = if phase = .lit then .dark else .lit := by
  cases phase with
  | idle => exact absurd rfl runs
  | lit => rfl
  | dark => rfl

/-- The next phase's length is the other phase's parameter. -/
theorem lengthParam_after {phase : FlasherState} (runs : phase ≠ .idle) :
    lengthParam phase.after = if phase = .lit then .darkLength else .litLength := by
  rw [lengthParam, after_of_runs runs]
  split <;> rfl

/-- The next phase is LIT exactly when this one is not (R117). -/
theorem after_lit {phase : FlasherState} (runs : phase ≠ .idle) : (phase.after == .lit) = (phase != .lit) := by
  rw [after_of_runs runs, bne, Bool.beq_eq_decide_eq, Bool.beq_eq_decide_eq]
  split <;> simp [*]

/-- The flasher after a tick at 1: the other phase, its length read and adjusted under the rate as judged (R117, R121, R122). -/
theorem nextPhase_flasher {s : State} (d : Time) (runs : s.flasher.state ≠ .idle) :
    let rate := (judgeRate (countedDown s d)).2
    let n := phaseLength rate (s.tables.peekParam (if s.flasher.state = .lit then .darkLength else .litLength))
    (resolveAll (nextPhase s d)).flasher = ⟨if s.flasher.state = .lit then .dark else .lit, n, n, rate, some (d + Config.ms10)⟩ := by
  rw [resolveAll_flasher, nextPhase, startPhase_flasher, lengthParam_after runs, after_of_runs runs]
  rfl

/-- A load after a tick at 1: resolved by its entry under the next phase (R94, R117). -/
theorem nextPhase_load {s : State} (d : Time) (runs : s.flasher.state ≠ .idle) (l : Fin 32) :
    (resolveAll (nextPhase s d)).lamps.loads[l] =
      resolved s.tables { s.lampEnv with lit := s.flasher.state != .lit } false l s.lamps.loads[l] := by
  obtain ⟨reads, frame⟩ := nextPhase_eq s d
  have lamps : (nextPhase s d).lamps = s.lamps := by rw [frame]
  have env : (nextPhase s d).lampEnv = { s.lampEnv with lit := s.flasher.state != .lit } := by
    rw [← after_lit runs]
    rfl
  rw [resolveAll, resolveLoads_get _ _ (List.nodup_finRange 32), if_pos (List.mem_finRange l), env, lamps, resolved, resolved, reads.load]

/-- Settles O40, by the counter: above 1 the tick counts down, and at 1 it starts the next phase and resolves the loads under it. -/
theorem flasherTickCountsDown : Obligations.FlasherTickCountsDown := by
  intro dt s d run runs timer expired
  have ticks := execFlasherTick_due run runs timer expired
  refine ⟨fun above => ticks.trans (congrArg Host.Outcome.next (tickFlasher_above d above)), fun one => ?_⟩
  intro counts
  rw [tickFlasher_one (s := s.elapse dt) d one] at ticks
  obtain ⟨reads, frame⟩ := nextPhase_eq (s.elapse dt) d
  obtain ⟨t, a, b, lamps, touched, later, _⟩ := resolveAll_touches (nextPhase (s.elapse dt) d)
  have flasher := nextPhase_flasher (s := s.elapse dt) d runs
  let n := s.tables.peekParam (if s.flasher.state = .lit then .darkLength else .litLength)
  have same (l : Fin 32) : Counts s.tables (countedDown (s.elapse dt) d).lampEnv s.lamps.loads l ↔ counts l :=
    exists_congr fun e => and_congr_right fun _ => countsForRate_iff _ _ _
  refine ⟨resolveAll (nextPhase (s.elapse dt) d), n, ticks, ?_, ?_, ⟨nextPhase (s.elapse dt) d, reads.1, ?_, rfl⟩, rfl, ?_, ?_,
    fun ⟨l, h⟩ => ?_, fun h => ?_, ?_, fun l => ?_⟩
  · rw [touched]
    exact (reads.trans later).1
  · rw [touched, frame]
    rfl
  · rw [resolveAll_flasher]
    exact frame
  · rw [flasher]
    rfl
  · rw [flasher]
  · obtain ⟨fast, half⟩ := judgeRate_counted (s := countedDown (s.elapse dt) d) ⟨l, (same l).mpr h⟩ n
    simp only [flasher]
    exact ⟨fast, half⟩
  · obtain ⟨normal, whole⟩ := judgeRate_uncounted (s := countedDown (s.elapse dt) d) (fun l c => h l ((same l).mp c)) n
    simp only [flasher]
    exact ⟨normal, whole⟩
  · rw [flasher]
  · rw [nextPhase_load (s := s.elapse dt) d runs l, resolved]
    rfl

end Sys2Proof.Machine.FlasherPhases
end

section
/-! PROOFS. The flasher in order (R114 to R118): how every command keeps it running exactly while a side flashes. Modes and the indicate
request move in the walks of the action engine, whose group of changes settles the flasher; a tick moves the flasher alone. -/

namespace Sys2Proof.Machine.FlasherSteps

open FlasherPhases ActionChains

/-! ## A flasher that runs, and one at rest -/

/-- A running flasher in order: its counter is 1 to its loaded length of at most 255, and its tick timer runs (R115, R122). -/
def Runs (f : Flasher) : Prop :=
  f.state ≠ .idle ∧ 1 ≤ f.counter ∧ f.counter ≤ f.loaded ∧ f.loaded ≤ 255 ∧ f.tick.isSome = true

/-- A flasher at rest: counter and loaded length 0, and its timer stopped (R114, R118). -/
def Rests (f : Flasher) : Prop := f.state = .idle ∧ f.counter = 0 ∧ f.loaded = 0 ∧ f.tick = none

/-- The flasher in order: it runs while a side flashes, and rests while none does (R114, R116, R118). -/
structure InOrder (s : State) : Prop where
  runs : s.lampEnv.eitherFlashing = true → Runs s.flasher
  rests : ¬s.lampEnv.eitherFlashing = true → Rests s.flasher

/-- This is the order that R114 to R118 ask for. -/
theorem flasherWf_iff (s : State) : s.FlasherWf ↔ InOrder s := by
  unfold State.FlasherWf
  split
  · next flashes => exact ⟨fun h => ⟨fun _ => h, fun dark => absurd flashes dark⟩, fun h => h.runs flashes⟩
  · next dark => exact ⟨fun h => ⟨fun flashes => absurd flashes dark, fun _ => h⟩, fun h => h.rests dark⟩

/-- In order, a flasher runs or rests, whether a side flashes or not. -/
theorem runs_or_rests {s : State} (w : InOrder s) : Runs s.flasher ∨ Rests s.flasher :=
  (Classical.em (s.lampEnv.eitherFlashing = true)).imp w.runs w.rests

/-- The modes and the indicate request alone say whether a side flashes (R113). -/
theorem eitherFlashing_congr {s u : State} (modes : u.engine.modes = s.engine.modes) (indicate : u.engine.indicate = s.engine.indicate) :
    u.lampEnv.eitherFlashing = s.lampEnv.eitherFlashing := by
  simp only [LampEnv.eitherFlashing, LampEnv.flashing, State.lampEnv, State.mode, modes, indicate]

/-! ## The start of a phase -/

/-- Each phase's length reads as 1 to 255 ticks (R6, R7, R12). -/
theorem peekParam_lengthParam (t : TableStore) (phase : FlasherState) :
    1 ≤ t.peekParam (lengthParam phase) ∧ t.peekParam (lengthParam phase) ≤ 255 := by
  have range (n : Nat) : 1 ≤ clampTo 1 255 n ∧ clampTo 1 255 n ≤ 255 := by
    unfold clampTo
    omega
  unfold lengthParam TableStore.peekParam
  cases phase with
  | lit =>
    simp only [if_true]
    split
    · decide
    · exact range _
  | idle | dark =>
    simp only [reduceCtorEq, if_false]
    split
    · decide
    · exact range _

/-- A length of 1 to 255 is one still when adjusted to the rate (R122). -/
theorem phaseLength_range (rate : Rate) {n : Nat} (h : 1 ≤ n ∧ n ≤ 255) : 1 ≤ phaseLength rate n ∧ phaseLength rate n ≤ 255 := by
  cases rate with
  | normal => exact h
  | fast =>
    show 1 ≤ (n + 1) / 2 ∧ (n + 1) / 2 ≤ 255
    omega

/-- A LIT or DARK phase starts with the flasher running in order (R116, R117). -/
theorem startPhase_runs {s : State} {phase : FlasherState} (on : phase ≠ .idle) (timed : s.flasher.tick.isSome = true) :
    Runs (startPhase s phase).flasher := by
  obtain ⟨positive, bounded⟩ := phaseLength_range (judgeRate s).2 (peekParam_lengthParam s.tables phase)
  simp only [startPhase_flasher, Runs]
  exact ⟨on, positive, Nat.le_refl _, bounded, timed⟩

/-! ## The group of changes -/

theorem eitherFlashing_settleFlasher (s : State) : (settleFlasher s).lampEnv.eitherFlashing = s.lampEnv.eitherFlashing := by
  obtain ⟨t, f, settled, _⟩ := settleFlasher_touches s
  rw [settled]
  exact eitherFlashing_congr rfl rfl

/-- A group of changes leaves the flasher in order, whatever it has done to the sides flashing (R116, R118, R119). -/
theorem settleFlasher_inOrder {s : State} (w : Runs s.flasher ∨ Rests s.flasher) : InOrder (settleFlasher s) := by
  constructor
  · intro flashes
    rw [eitherFlashing_settleFlasher] at flashes
    by_cases idle : s.flasher.state = .idle
    · rw [settleFlasher_starts flashes idle]
      exact startPhase_runs nofun rfl
    · rw [settleFlasher_stands (iff_of_true flashes idle)]
      exact w.resolve_right fun ⟨rests, _⟩ => idle rests
  · intro dark
    rw [eitherFlashing_settleFlasher] at dark
    by_cases idle : s.flasher.state = .idle
    · rw [settleFlasher_stands (iff_of_false dark (not_not_intro idle))]
      exact w.resolve_left fun ⟨runs, _⟩ => runs idle
    · rw [settleFlasher_stops dark idle]
      exact ⟨rfl, rfl, rfl, rfl⟩

/-! ## States with the same flasher, modes and indicate request -/

/-- What the flasher's order speaks of: the flasher, and the modes and indicate request that say which sides flash (R113). -/
def view (s : State) : Flasher × Vector Bool 16 × Option Side := (s.flasher, s.engine.modes, s.engine.indicate)

/-- The flasher's order is one of its view. -/
theorem InOrder.of_view {s u : State} (w : InOrder s) (h : view u = view s) : InOrder u := by
  obtain ⟨flasher, modes, indicate⟩ : u.flasher = s.flasher ∧ u.engine.modes = s.engine.modes ∧ u.engine.indicate = s.engine.indicate := by
    simpa only [view, Prod.mk.injEq] using h
  have flashing := eitherFlashing_congr modes indicate
  exact ⟨by rw [flashing, flasher]; exact w.runs, by rw [flashing, flasher]; exact w.rests⟩

theorem view_of_blocks {s u : State} (flasher : u.flasher = s.flasher) (engine : u.engine = s.engine) : view u = view s := by
  rw [view, flasher, engine, view]

@[simp] theorem view_setPort (s : State) (p : PortId) (q : Port) : view (s.setPort p q) = view s := by cases p <;> rfl

@[simp] theorem view_withTables (s : State) (t : TableStore) : view (s.withTables t) = view s := rfl

@[simp] theorem view_releasePool (s : State) (p : PortId) : view (s.releasePool p) = view s := view_setPort s p _

@[simp] theorem view_answer (s : State) (p : PortId) (f : Frame) (status : Status) (data : List Byte) : view (answer s p f status data) = view s :=
  view_setPort s p _

/-- A choice between two states that both have the view of a third. -/
theorem view_ite {c : Prop} [Decidable c] {s u v : State} (hu : view u = view s) (hv : view v = view s) : view (if c then u else v) = view s := by
  split
  · exact hu
  · exact hv

theorem view_of_samples {s u : State} (h : TouchesSamples s u) : view u = view s := by
  obtain ⟨t, e, d, g, rfl, _⟩ := h
  rfl

theorem view_of_route {s u : State} (h : TouchesRoute s u) : view u = view s := by
  obtain ⟨t, a, x, b, y, r, e, l, d, g, rfl, _⟩ := h
  rfl

theorem view_of_lamps {s u : State} (h : TouchesLamps s u) : view u = view s := by
  obtain ⟨t, a, b, l, rfl, _⟩ := h
  rfl

theorem view_of_targets {s u : State} (h : TouchesTargets s u) : view u = view s := by
  obtain ⟨t, g, rfl, _⟩ := h
  rfl

theorem view_of_gauges {s u : State} (h : TouchesGauges s u) : view u = view s := by
  obtain ⟨t, g, rfl, _⟩ := h
  rfl

theorem view_resolveLoads (s : State) (fade : Bool) (ls : List (Fin 32)) : view (resolveLoads s fade ls) = view s :=
  view_of_lamps (resolveLoads_touches s fade ls)

theorem view_resolveAll (s : State) : view (resolveAll s) = view s := view_of_lamps (resolveAll_touches s)

/-! ## The walks -/

/-- A whole group of changes leaves the flasher in order (R76, R120). -/
theorem commitGroup_inOrder {before s : State} (w : Runs s.flasher ∨ Rests s.flasher) : InOrder (commitGroup before s) := by
  have settles : InOrder (settled before s) := settleFlasher_inOrder (s := { s with gauges := gaugesAfter before s }) w
  rw [commitGroup_eq]
  split
  · exact settles.of_view (view_resolveAll _)
  · exact settles

/-- A walk leaves the flasher to the group of changes that follows it (R76). -/
theorem walk_flasher (ch : Chain) (n : Nat) (i : Fin 256) (s : State) : (walk ch n i s).flasher = s.flasher := by
  obtain ⟨t, e, n, l, walked, _⟩ := walk_walk ch n i s
  rw [walked]

/-- A whole walk leaves the flasher in order. -/
theorem runWalk_inOrder {ch : Chain} {i : Fin 256} {s : State} (w : InOrder s) : InOrder (runWalk ch i s) :=
  (commitGroup_inOrder (before := s) (by rw [walk_flasher]; exact runs_or_rests w)).of_view rfl

/-- The end of a chain frees a slot and clears a mark (R71). -/
theorem view_endChain (ch : Chain) (s : State) : view (endChain ch s) = view s := by
  unfold endChain
  split <;> rfl

/-- A cancellation frees slots and clears a mark (R74). -/
theorem view_cancelChain (s : State) (c : Fin 32) : view (cancelChain s c) = view s := by
  rw [ChainSlots.cancelChain_eq]
  rfl

theorem takeChannel_inOrder {s : State} (w : InOrder s) (c : Fin 32) (e : EventEntry) (edge : Edge) : InOrder (takeChannel s c e edge) := by
  have taken : InOrder
      (if (s.events.channels[c]).inService = true then cancelChain (s.updChannel c fun x => { x with pending := none }) c
        else s.updChannel c fun x => { x with pending := none }) :=
    w.of_view (view_ite (view_cancelChain _ c) rfl)
  unfold takeChannel
  simp only
  split
  · exact runWalk_inOrder taken
  · exact taken.of_view rfl

/-- A choice keeps the flasher in order, whichever channels it looks at (R72). -/
theorem chooseFrom_inOrder : ∀ (cs : List (Fin 32)) (s : State), InOrder s → InOrder (chooseFrom cs s) := by
  intro cs
  induction cs with
  | nil => intro s w; exact w.of_view rfl
  | cons c cs ih =>
    intro s w
    have read : InOrder (s.withTables (s.tables.event c).1) := w.of_view (view_withTables s _)
    have dropped : InOrder ((s.withTables (s.tables.event c).1).updChannel c fun x => { x with pending := none }) := read.of_view rfl
    simp only [chooseFrom]
    split
    · exact ih s w
    · split
      · exact ih s w
      · split
        · exact ih _ dropped
        · split
          · exact takeChannel_inOrder read _ _ _
          · exact ih _ read

theorem resumeSlot_inOrder {s : State} (w : InOrder s) (k : Fin 4) : InOrder (resumeSlot s k) := by
  unfold resumeSlot
  simp only
  split
  · exact w.of_view (view_endChain ⟨(s.engine.slots[k]).channel, some k⟩ s)
  · exact runWalk_inOrder w

/-! ## The tick -/

/-- A tick keeps a running flasher in order: it counts down above 1, and starts the next phase at 1 (R115, R117). -/
theorem tickFlasher_inOrder {s : State} (w : InOrder s) (on : s.flasher.state ≠ .idle) (d : Time) : InOrder (tickFlasher s d) := by
  have flashes : s.lampEnv.eitherFlashing = true := Classical.not_not.mp fun dark => on (w.rests dark).1
  obtain ⟨_, positive, within, bounded, _⟩ : Runs s.flasher := (runs_or_rests w).resolve_right fun ⟨rests, _⟩ => on rests
  by_cases one : s.flasher.counter = 1
  · have next : Runs (nextPhase s d).flasher := startPhase_runs (by rw [after_of_runs on]; split <;> nofun) rfl
    have engine : (nextPhase s d).engine = s.engine := by rw [(nextPhase_eq s d).2]
    have still := (eitherFlashing_congr (by rw [engine]) (by rw [engine])).trans flashes
    rw [tickFlasher_one d one]
    exact InOrder.of_view ⟨fun _ => next, fun dark => absurd still dark⟩ (view_resolveAll _)
  · have above : 1 < s.flasher.counter := by omega
    have down : Runs (countedDown s d).flasher := ⟨on, Nat.le_sub_one_of_lt above, Nat.le_trans (Nat.sub_le _ _) within, bounded, rfl⟩
    have still : (countedDown s d).lampEnv.eitherFlashing = true := flashes
    rw [tickFlasher_above d above]
    exact ⟨fun _ => down, fun dark => absurd still dark⟩

/-! ## The resets -/

/-- The stages of a reset after the first read entries and resolve loads. -/
theorem view_resetBlocks (keep : Bool) (s : State) : view (resetBlocks keep s) = view (clearBlocks keep s) := by
  obtain ⟨_, _, routes, _⟩ := resetRoutes_touches (clearBlocks keep s)
  obtain ⟨_, _, events, _⟩ := resetEvents_touches (resetRoutes (clearBlocks keep s))
  obtain ⟨_, _, sampler, _⟩ := resetSampler_touches (resetEvents (resetRoutes (clearBlocks keep s)))
  refine (view_of_lamps (resetLamps_touches _)).trans ?_
  rw [sampler, events, routes]
  rfl

/-- A reset leaves the flasher at rest and no side flashing (R70, R114). -/
theorem resetBlocks_inOrder (keep : Bool) (s : State) : InOrder (resetBlocks keep s) := by
  have dark : ¬(clearBlocks keep s).lampEnv.eitherFlashing = true := by
    rw [eitherFlashing_iff]
    simp [clearBlocks, ActionEngine.afterReset, State.mode]
  have cleared : InOrder (clearBlocks keep s) := ⟨fun flashes => absurd flashes dark, fun _ => ⟨rfl, rfl, rfl, rfl⟩⟩
  exact cleared.of_view (view_resetBlocks keep s)

/-! ## The operations that leave the view -/

/-- A request performed and released leaves the view where its performing does (R159). -/
theorem view_request {s : State} {p : PortId} {f : Frame} {g : State → State} (h : view (g s) = view s) :
    view ((unlessBusy s p f g).releasePool p) = view s :=
  (view_releasePool _ p).trans (view_ite h (view_answer s p f _ _))

theorem view_judgeFrame (s : State) (p : PortId) (r : Reception) : view (judgeFrame s p r) = view s :=
  view_ite (view_setPort s p _) (view_ite (view_setPort _ p _) (view_setPort s p _))

theorem view_readTable (s : State) (p : PortId) (f : Frame) (area : Byte) (index count : Nat) :
    view (readTable s p f area index count) = view s := by
  unfold readTable
  split
  · exact view_ite (view_answer s p f _ _) (view_answer s p f _ _)
  · exact view_answer s p f _ _

theorem view_answerPortGroup (s : State) (p : PortId) (f : Frame) (g : PortId) (clear : Bool) : view (answerPortGroup s p f g clear) = view s := by
  have cleared : view (if clear then clearPortCounters s g else s) = view s := view_ite (view_setPort s g _) rfl
  simpa only [answerPortGroup, view_answer] using cleared

theorem view_readCounters (s : State) (p : PortId) (f : Frame) (group clear : Nat) : view (readCounters s p f group clear) = view s := by
  have cleared : view (if clear = 1 then clearDeviceCounters s else s) = view s := view_ite rfl rfl
  unfold readCounters
  split
  · exact view_answer s p f _ _
  · split
    · exact view_answerPortGroup s p f _ _
    · exact view_answerPortGroup s p f _ _
    · exact (view_answer _ p f _ _).trans cleared
    · exact view_answer s p f _ _

theorem view_beginStore (s : State) (p : PortId) (f : Frame) : view (beginStore s p f) = view s := by
  unfold beginStore
  split
  · exact view_answer _ p f _ _
  · rfl

theorem view_dropDisabled (s : State) (c : Fin 32) : view (dropDisabled s c) = view s := view_ite rfl rfl

/-- A write of EVENT words drops pending edges and calls for a choice (R68, R72). -/
theorem view_eventsWritten (s : State) (cs : List (Fin 32)) : view (eventsWritten s cs) = view s :=
  foldl_rel (R := fun a b : State => view b = view a) (fun _ => rfl) (fun h k => k.trans h) view_dropDisabled cs s

theorem view_writeTable (s : State) (a : Area) (index : Nat) (ws : List Word16) : view (writeTable s a index ws) = view s := by
  have written := view_withTables s { s.tables.writeWords (address a index) ws with source := .modified }
  unfold writeTable
  simp only
  split
  · exact (view_eventsWritten _ _).trans written
  · exact (view_resolveAll _).trans written
  · exact written

theorem view_loadLimp (s : State) (v : LimpVariant) : view (loadLimp s v) = view s := by
  rw [loadLimp, view_resolveAll, view_eventsWritten, view_withTables]

theorem view_clearLatches (s : State) (ls : List (Fin 32)) : view (clearLatches s ls) = view s := view_resolveLoads _ _ _

theorem view_expireWatch (s : State) (src : Fin 64) : view (expireWatch s src) = view s := by
  obtain ⟨t, e, r, expired, _⟩ := expireWatch_touches s src
  rw [expired]
  rfl

theorem view_expireDebounce (s : State) : view (expireDebounce s) = view s := by
  obtain ⟨t, e, expired, _⟩ := expireDebounce_touches s
  rw [expired]
  rfl

theorem view_settleRefill (s : State) (p : PortId) : view (settleRefill s p) = view s :=
  (view_of_lamps (settleRefill_touches s p).1).trans (view_setPort s p _)

theorem view_owedRefill (s : State) (p : PortId) : view (owedRefill s p) = view s := view_ite (view_settleRefill s p) rfl

theorem view_markDirty (s : State) (pod : Option (Fin 12)) : view (markDirty s pod) = view s := view_of_lamps (markDirty_touches s pod).1

/-! ## The commands that leave the view -/

/-- The commands that can change the flasher, the modes or the indicate request: the resets, the action engine's walks, and the tick. -/
def MovesView : Instr → Prop
  | .powerOn .. | .brownOut .. | .frameSent .. | .collision .. | .restart .. | .actionTake .. | .chainResume .. | .flasherTick .. => True
  | _ => False

/-- What a command answers, if it answers a state, has the view the command found. -/
abbrev LeavesView (s : State) (r : Result) : Prop := ∀ t, r = .next t → view t = view s

/-- A step of the blocks whose meaning leaves the view. -/
theorem live_leavesView {dt : Time} {s : State} {f : State → State} (h : ∀ u, view (f u) = view u) : LeavesView s (live dt s f) := by
  intro t e
  cases e
  exact view_ite (h _) rfl

theorem execLowSupplyHold_leavesView (dt : Time) (s : State) : LeavesView s (execLowSupplyHold dt s) :=
  live_leavesView fun u => by
    rw [EventChannels.abandonStore_eq u]
    rfl

theorem execFeedFellBelow2V5_leavesView (dt : Time) (s : State) : LeavesView s (execFeedFellBelow2V5 dt s) := by
  intro t e
  unfold execFeedFellBelow2V5 at e
  cases e
  split <;> rfl

theorem execBitsDisturbedInStorage_leavesView (dt : Time) (a : Area) (i : Nat) (d : Word16) (s : State) :
    LeavesView s (execBitsDisturbedInStorage dt a i d s) := by
  intro t e
  unfold execBitsDisturbedInStorage at e
  simp only at e
  split at e
  · cases e
    exact view_withTables _ _
  · cases e

theorem execIgnitionInputChange_leavesView (dt : Time) (on : Bool) (s : State) : LeavesView s (execIgnitionInputChange dt on s) := by
  intro t e
  unfold execIgnitionInputChange at e
  cases e
  exact view_ite rfl rfl

theorem execByteReceived_leavesView (dt : Time) (p : PortId) (edge : ByteEdge) (s : State) : LeavesView s (execByteReceived dt p edge s) := by
  intro t e
  unfold execByteReceived at e
  cases e
  exact view_ite (view_setPort _ p _) (view_setPort _ p _)

theorem execFrameEnd_leavesView (dt : Time) (p : PortId) (s : State) : LeavesView s (execFrameEnd dt p s) :=
  live_leavesView fun u => view_ite ((view_judgeFrame _ p _).trans (view_setPort u p _)) rfl

theorem execSkipEnd_leavesView (dt : Time) (p : PortId) (s : State) : LeavesView s (execSkipEnd dt p s) :=
  live_leavesView fun u => view_ite (view_setPort u p _) rfl

theorem execTransmitStart_leavesView (dt : Time) (p : PortId) (s : State) : LeavesView s (execTransmitStart dt p s) :=
  live_leavesView fun u => view_ite (view_setPort u p _) rfl

theorem execSentByteReadBackEqual_leavesView (dt : Time) (p : PortId) (s : State) : LeavesView s (execSentByteReadBackEqual dt p s) :=
  live_leavesView fun u => by
    dsimp only
    split
    · exact view_ite (view_setPort u p _) rfl
    · rfl

theorem execTransitCopy_leavesView (dt : Time) (p : PortId) (s : State) : LeavesView s (execTransitCopy dt p s) :=
  live_leavesView fun u => by
    split
    · exact (view_releasePool _ p).trans ((view_ite rfl (view_setPort _ _ _)).trans (view_withTables u _))
    · rfl

theorem execRouteWalk_leavesView (dt : Time) (p : PortId) (s : State) : LeavesView s (execRouteWalk dt p s) :=
  live_leavesView fun u => by
    split
    · exact (view_releasePool _ p).trans (view_of_route (routeFrame_route u p _))
    · rfl

theorem execWaitExpiry_leavesView (dt : Time) (k : Fin 4) (s : State) : LeavesView s (execWaitExpiry dt k s) :=
  live_leavesView fun _ => view_ite rfl rfl

theorem execWatchExpiry_leavesView (dt : Time) (src : Fin 64) (s : State) : LeavesView s (execWatchExpiry dt src s) :=
  live_leavesView fun u => view_ite (view_expireWatch u src) rfl

theorem execIgnitionDebounceExpiry_leavesView (dt : Time) (s : State) : LeavesView s (execIgnitionDebounceExpiry dt s) :=
  live_leavesView fun u => view_ite (view_expireDebounce u) rfl

theorem execLoadFadeExpiry_leavesView (dt : Time) (s : State) : LeavesView s (execLoadFadeExpiry dt s) :=
  live_leavesView fun u => by
    split
    · exact (view_resolveLoads _ true _).trans rfl
    · rfl

theorem execCoolOffExpiry_leavesView (dt : Time) (l : Fin 32) (s : State) : LeavesView s (execCoolOffExpiry dt l s) :=
  live_leavesView fun _ => view_ite ((view_resolveLoads _ false _).trans rfl) rfl

theorem execRefreshExpiry_leavesView (dt : Time) (P : Fin 12) (s : State) : LeavesView s (execRefreshExpiry dt P s) :=
  live_leavesView fun u => view_ite (view_of_lamps ((produceLampcmd_touches u P).trans (startRefresh_touches _ P)).1) rfl

theorem execReportTimerExpiry_leavesView (dt : Time) (P : Fin 12) (s : State) : LeavesView s (execReportTimerExpiry dt P s) :=
  live_leavesView fun _ => view_ite (view_of_blocks rfl rfl) rfl

theorem execConversion_leavesView (dt : Time) (c0 c1 c2 c3 : BitVec 10) (s : State) : LeavesView s (execConversion dt c0 c1 c2 c3 s) :=
  live_leavesView fun u => by
    have sampled (v : State) (d : Fin 16) (code : Nat) : view (presentSample v d code) = view v := view_of_samples (presentSample_touches v d code)
    refine view_ite ?_ rfl
    simp only [sampled]
    rfl

theorem execStaleExpiry_leavesView (dt : Time) (d : Fin 16) (s : State) : LeavesView s (execStaleExpiry dt d s) :=
  live_leavesView fun _ => view_ite rfl rfl

theorem execCoilPulse_leavesView (dt : Time) (s : State) : LeavesView s (execCoilPulse dt s) :=
  live_leavesView fun _ => view_ite rfl rfl

theorem execGateExpiry_leavesView (dt : Time) (s : State) : LeavesView s (execGateExpiry dt s) :=
  live_leavesView fun _ => by
    split
    · exact (view_of_targets (handReading_touches _ _ _)).trans rfl
    · rfl

theorem execGaugeUpdate_leavesView (dt : Time) (s : State) : LeavesView s (execGaugeUpdate dt s) :=
  live_leavesView fun u => by
    split
    · exact (view_of_gauges (updateGauges_touches _)).trans rfl
    · rfl

theorem execIdentify_leavesView (dt : Time) (p : PortId) (s : State) : LeavesView s (execIdentify dt p s) :=
  live_leavesView fun u => by
    split
    · exact (view_releasePool _ p).trans (view_answer u p _ _ _)
    · rfl

theorem execBadRequest_leavesView (dt : Time) (p : PortId) (s : State) : LeavesView s (execBadRequest dt p s) :=
  live_leavesView fun u => by
    split
    · exact (view_releasePool _ p).trans (view_answer u p _ _ _)
    · rfl

theorem execReadTable_leavesView (dt : Time) (p : PortId) (s : State) : LeavesView s (execReadTable dt p s) :=
  live_leavesView fun u => by
    split
    · exact view_request (view_readTable u p _ _ _ _)
    · rfl

theorem execWriteTable_leavesView (dt : Time) (p : PortId) (s : State) : LeavesView s (execWriteTable dt p s) :=
  live_leavesView fun u => by
    split
    · refine view_request (view_ite (view_answer u p _ _ _) ?_)
      split
      · exact (view_answer _ p _ _ _).trans (view_writeTable u _ _ _)
      · exact view_answer u p _ _ _
    · rfl

theorem execReadState_leavesView (dt : Time) (p : PortId) (s : State) : LeavesView s (execReadState dt p s) :=
  live_leavesView fun u => by
    split
    · refine view_request ?_
      split
      · exact view_answer u p _ _ _
      · exact view_answer u p _ _ _
    · rfl

theorem execReadCounters_leavesView (dt : Time) (p : PortId) (s : State) : LeavesView s (execReadCounters dt p s) :=
  live_leavesView fun u => by
    split
    · exact view_request (view_readCounters u p _ _ _)
    · rfl

theorem execClearLatch_leavesView (dt : Time) (p : PortId) (s : State) : LeavesView s (execClearLatch dt p s) :=
  live_leavesView fun u => by
    split
    · refine view_request ?_
      split
      · exact (view_answer _ p _ _ _).trans (view_clearLatches u _)
      · exact view_answer u p _ _ _
    · rfl

theorem execStore_leavesView (dt : Time) (p : PortId) (s : State) : LeavesView s (execStore dt p s) :=
  live_leavesView fun u => by
    split
    · exact view_request (view_beginStore u p _)
    · rfl

theorem execLoadLimp_leavesView (dt : Time) (p : PortId) (s : State) : LeavesView s (execLoadLimp dt p s) :=
  live_leavesView fun u => by
    split
    · refine view_request (view_ite (view_answer u p _ _ _) ?_)
      split
      · exact (view_answer _ p _ _ _).trans (view_loadLimp u _)
      · exact view_answer u p _ _ _
    · rfl

theorem execStoreComplete_leavesView (dt : Time) (verified : Bool) (s : State) : LeavesView s (execStoreComplete dt verified s) :=
  live_leavesView fun u => by
    split
    · exact view_ite (view_setPort _ _ _) (view_setPort _ _ _)
    · rfl
    · rfl

/-- Every other command leaves the flasher, the modes and the indicate request. -/
theorem exec_leavesView {c : Instr} (h : ¬MovesView c) (s : State) : LeavesView s (exec c s) := by
  cases c with
  | powerOn | brownOut | frameSent | collision | restart | actionTake | chainResume | flasherTick => exact absurd trivial h
  | lowSupplyHold dt => exact execLowSupplyHold_leavesView dt s
  | feedFellBelow2V5 dt => exact execFeedFellBelow2V5_leavesView dt s
  | bitsDisturbedInStorage dt a i d => exact execBitsDisturbedInStorage_leavesView dt a i d s
  | ignitionInputChange dt on => exact execIgnitionInputChange_leavesView dt on s
  | byteReceived dt p edge => exact execByteReceived_leavesView dt p edge s
  | frameEnd dt p => exact execFrameEnd_leavesView dt p s
  | skipEnd dt p => exact execSkipEnd_leavesView dt p s
  | transmitStart dt p => exact execTransmitStart_leavesView dt p s
  | sentByteReadBackEqual dt p => exact execSentByteReadBackEqual_leavesView dt p s
  | transitCopy dt p => exact execTransitCopy_leavesView dt p s
  | routeWalk dt p => exact execRouteWalk_leavesView dt p s
  | waitExpiry dt k => exact execWaitExpiry_leavesView dt k s
  | watchExpiry dt src => exact execWatchExpiry_leavesView dt src s
  | ignitionDebounceExpiry dt => exact execIgnitionDebounceExpiry_leavesView dt s
  | loadFadeExpiry dt => exact execLoadFadeExpiry_leavesView dt s
  | coolOffExpiry dt l => exact execCoolOffExpiry_leavesView dt l s
  | refreshExpiry dt P => exact execRefreshExpiry_leavesView dt P s
  | reportTimerExpiry dt P => exact execReportTimerExpiry_leavesView dt P s
  | conversion dt c0 c1 c2 c3 => exact execConversion_leavesView dt c0 c1 c2 c3 s
  | staleExpiry dt d => exact execStaleExpiry_leavesView dt d s
  | coilPulse dt => exact execCoilPulse_leavesView dt s
  | gateExpiry dt => exact execGateExpiry_leavesView dt s
  | gaugeUpdate dt => exact execGaugeUpdate_leavesView dt s
  | identify dt p => exact execIdentify_leavesView dt p s
  | readTable dt p => exact execReadTable_leavesView dt p s
  | writeTable dt p => exact execWriteTable_leavesView dt p s
  | readState dt p => exact execReadState_leavesView dt p s
  | readCounters dt p => exact execReadCounters_leavesView dt p s
  | clearLatch dt p => exact execClearLatch_leavesView dt p s
  | store dt p => exact execStore_leavesView dt p s
  | loadLimp dt p => exact execLoadLimp_leavesView dt p s
  | badRequest dt p => exact execBadRequest_leavesView dt p s
  | storeComplete dt verified => exact execStoreComplete_leavesView dt verified s

/-! ## The commands that can move the view -/

/-- What a command answers, if it answers a state, has the flasher in order. -/
abbrev AnswersInOrder (r : Result) : Prop := ∀ t, r = .next t → InOrder t

/-- A step of the blocks whose meaning keeps the flasher in order. -/
theorem live_inOrder {dt : Time} {s : State} {f : State → State} (w : InOrder s) (h : ∀ u, InOrder u → InOrder (f u)) :
    AnswersInOrder (live dt s f) := by
  intro t e
  cases e
  have later : InOrder (s.elapse dt) := w.of_view rfl
  split
  · exact h _ later
  · exact later

/-- The restart that a freed reply was waited for keeps the order (R171). -/
theorem afterFreeing_inOrder {s : State} (w : InOrder s) (e : QueueEntry) : InOrder (afterFreeing e s) := by
  unfold afterFreeing
  split
  · exact resetBlocks_inOrder true s
  · exact w

theorem sendHead_inOrder {s : State} {refilled : State → State} (w : InOrder s) (p : PortId) (h : ∀ u, view (refilled u) = view u) :
    InOrder (sendHead s p refilled) := by
  unfold sendHead
  simp only
  split
  · exact afterFreeing_inOrder (w.of_view ((h _).trans (view_setPort s p _))) _
  · exact w

theorem abandonHead_inOrder {s : State} {refilled : State → State} (w : InOrder s) (p : PortId) (h : ∀ u, view (refilled u) = view u) :
    InOrder (abandonHead s p refilled) := by
  unfold abandonHead
  simp only
  split
  · exact afterFreeing_inOrder (w.of_view (((h _).trans (view_markDirty _ _)).trans (view_setPort s p _))) _
  · exact w

theorem execFrameSent_inOrder (dt : Time) (part : Freeing) {s : State} (w : InOrder s) : AnswersInOrder (execFrameSent dt part s) :=
  live_inOrder w fun u w => by
    cases part with
    | withRefill p => exact sendHead_inOrder w p fun v => view_settleRefill v p
    | alone p => exact sendHead_inOrder w p fun v => view_setPort v p _
    | refill p => exact w.of_view (view_owedRefill u p)

theorem execCollision_inOrder (dt : Time) (part : Freeing) {s : State} (w : InOrder s) : AnswersInOrder (execCollision dt part s) :=
  live_inOrder w fun u w => by
    cases part with
    | withRefill p => exact abandonHead_inOrder w p fun v => view_settleRefill v p
    | alone p => exact abandonHead_inOrder w p fun v => view_setPort v p _
    | refill p => exact w.of_view (view_owedRefill u p)

theorem execPowerOn_inOrder (dt : Time) (rise : FeedRise) {s : State} (w : InOrder s) : AnswersInOrder (execPowerOn dt rise s) := by
  intro t e
  unfold execPowerOn at e
  cases e
  split
  · split
    · exact resetBlocks_inOrder _ _
    · exact w.of_view rfl
  · exact w.of_view rfl

theorem execBrownOut_inOrder (dt : Time) {s : State} (w : InOrder s) : AnswersInOrder (execBrownOut dt s) := by
  intro t e
  unfold execBrownOut at e
  cases e
  split
  · exact resetBlocks_inOrder _ _
  · exact w.of_view rfl

/-- A RESTART accepted resets the part at once or waits for its reply to leave (R171). -/
theorem beginRestart_inOrder {s : State} (w : InOrder s) (p : PortId) (f : Frame) : InOrder (beginRestart s p f) := by
  unfold beginRestart
  simp only
  split
  · exact resetBlocks_inOrder _ _
  · exact w.of_view (view_setPort s p _)

theorem execRestart_inOrder (dt : Time) (p : PortId) {s : State} (w : InOrder s) : AnswersInOrder (execRestart dt p s) :=
  live_inOrder w fun u w => by
    split
    · refine InOrder.of_view ?_ (view_releasePool _ p)
      unfold unlessBusy
      split
      · exact beginRestart_inOrder w p _
      · exact w.of_view (view_answer u p _ _ _)
    · exact w

theorem execActionTake_inOrder (dt : Time) {s : State} (w : InOrder s) : AnswersInOrder (execActionTake dt s) :=
  live_inOrder w fun u w => by
    split
    · exact w
    · exact chooseFrom_inOrder _ u w

theorem execChainResume_inOrder (dt : Time) {s : State} (w : InOrder s) : AnswersInOrder (execChainResume dt s) :=
  live_inOrder w fun u w => by
    split
    · exact resumeSlot_inOrder w _
    · exact w

theorem execFlasherTick_inOrder (dt : Time) {s : State} (w : InOrder s) : AnswersInOrder (execFlasherTick dt s) :=
  live_inOrder w fun u w => by
    split
    · split
      · next occasion => exact tickFlasher_inOrder w occasion.2 _
      · exact w
    · exact w

/-- Every command keeps the flasher in order. -/
theorem exec_inOrder (c : Instr) {s : State} (w : InOrder s) : AnswersInOrder (exec c s) := by
  by_cases h : MovesView c
  · cases c with
    | powerOn dt rise => exact execPowerOn_inOrder dt rise w
    | brownOut dt => exact execBrownOut_inOrder dt w
    | frameSent dt part => exact execFrameSent_inOrder dt part w
    | collision dt part => exact execCollision_inOrder dt part w
    | restart dt p => exact execRestart_inOrder dt p w
    | actionTake dt => exact execActionTake_inOrder dt w
    | chainResume dt => exact execChainResume_inOrder dt w
    | flasherTick dt => exact execFlasherTick_inOrder dt w
    | _ => exact h.elim
  · exact fun t e => w.of_view (exec_leavesView h s t e)

/-- Settles O41: an idle step changes nothing, and every command keeps the flasher in order. -/
theorem stepKeepsFlasher : Obligations.StepKeepsFlasher := by
  intro s t w e
  rw [flasherWf_iff] at w ⊢
  unfold step at e
  split at e
  · cases e
    exact w
  · next c rest _ =>
    have taken : InOrder { s with pending := rest } := w.of_view rfl
    exact exec_inOrder c taken t e

end Sys2Proof.Machine.FlasherSteps
end

section
/-! PROOFS. The descriptors (chapter 8): what a sample, a completed window and a stale timer make of a record (R132 to R136), and the coil
pulses counted (R139). -/

namespace Sys2Proof.Machine.SampleWindows

/-! ## The threshold state -/

/-- A state other than ACTIVE takes its new state from the threshold itself (R134). -/
theorem thresholdAfter_idle {e : DescriptorEntry} {before : ThresholdState} (idle : before ≠ .active) (a : Nat) :
    thresholdAfter e before a =
      match e.sense with
      | .above => if e.threshold ≤ a then .active else .inactive
      | .below => if a ≤ e.threshold then .active else .inactive := by
  unfold thresholdAfter
  cases before with
  | active => exact absurd rfl idle
  | unknown => cases e.sense <;> rfl
  | inactive => cases e.sense <;> rfl

/-- ACTIVE is left beyond the release level alone (R134). -/
theorem thresholdAfter_active (e : DescriptorEntry) (a : Nat) :
    thresholdAfter e .active a =
      match e.sense with
      | .above => if a < e.threshold - e.hysteresis then .inactive else .active
      | .below => if min 1023 (e.threshold + e.hysteresis) < a then .inactive else .active := by
  unfold thresholdAfter
  cases e.sense <;> rfl

/-- The release level of sense ABOVE stops at 0 (R134). -/
theorem below_release_above (a threshold hysteresis : Nat) :
    a < threshold - hysteresis ↔ (a : Int) < max 0 ((threshold : Int) - hysteresis) := by
  omega

/-- Settles O43: a state other than ACTIVE is judged by the threshold, and ACTIVE by the release level. -/
theorem thresholdHasHysteresis : Obligations.ThresholdHasHysteresis := by
  intro r e n _ A after _
  have judged : after = thresholdAfter e r.threshold A := rfl
  refine ⟨fun above => ⟨fun idle => ?_, fun active => ?_⟩, fun below => ⟨fun idle => ?_, fun active => ?_⟩⟩
  · rw [judged, thresholdAfter_idle idle, above]
    exact ⟨fun h => if_pos h, fun h => if_neg (Nat.not_le.mpr h)⟩
  · rw [judged, active, thresholdAfter_active, above, ← below_release_above]
    exact ⟨fun h => if_pos h, fun h => if_neg (by omega)⟩
  · rw [judged, thresholdAfter_idle idle, below]
    exact ⟨fun h => if_pos h, fun h => if_neg (Nat.not_le.mpr h)⟩
  · rw [judged, active, thresholdAfter_active, below]
    exact ⟨fun h => if_pos h, fun h => if_neg (Nat.not_lt.mpr h)⟩

/-! ## The stale timers and the coil pulses -/

/-- A pulse with none counted before it, or at least 1 ms after the last counted one, is counted (R139). -/
theorem counts_of_spaced {m : Sampler} {now : Time} (h : m.lastPulse = none ∨ ∃ u, m.lastPulse = some u ∧ u + 1000 ≤ now) :
    m.counts now = true := by
  unfold Sampler.counts
  rcases h with first | ⟨u, last, spaced⟩
  · rw [first]
  · rw [last]
    exact decide_eq_true spaced

/-- A pulse less than 1 ms after the last counted one is not counted (R139). -/
theorem counts_of_close {m : Sampler} {now : Time} (h : ∃ u, m.lastPulse = some u ∧ now < u + 1000) : m.counts now = false := by
  obtain ⟨u, last, close⟩ := h
  unfold Sampler.counts
  rw [last]
  exact decide_eq_false (Nat.not_le.mpr close)

/-- Settles O44: a stale timer that is due discards its record's window, and a pulse is counted by its distance from the last. -/
theorem staleExpiryAndCoilPulse : Obligations.StaleExpiryAndCoilPulse := by
  refine ⟨fun dt d s running timer => ?_, fun dt s running => ⟨fun spaced => ?_, fun close => ?_⟩⟩
  · have expired : due ((s.elapse dt).sampler.descriptors[d]).staleTimer (s.elapse dt).now = true := EventChannels.due_iff.mpr timer
    simp only [exec, execStaleExpiry, live_running running, expired, if_true]
    rfl
  · have counted : (s.elapse dt).sampler.counts (s.elapse dt).now = true := counts_of_spaced spaced
    simp only [exec, execCoilPulse, live_running running, counted, if_true]
    rfl
  · have ignored : (s.elapse dt).sampler.counts (s.elapse dt).now = false := counts_of_close close
    simp only [exec, execCoilPulse, live_running running, ignored, Bool.false_eq_true, if_false]
    rfl

end Sys2Proof.Machine.SampleWindows
end

section
/-! PROOFS. The descriptors in order (R130, R132): how every command keeps each window short of full and its sum and average within range.
Samples reach descriptors from CONVERSION and from SENDER entries; a stale timer and a reset empty windows. -/

namespace Sys2Proof.Machine.DescriptorSteps

/-! ## One record -/

/-- A record that has just taken a sample: its window of 1 to 16 holds 1 sample to all of them, each of at most 1023 (R130, R132). -/
structure Filling (r : DescriptorRecord) (n : Nat) : Prop where
  window : r.window = some n
  length : 1 ≤ n ∧ n ≤ 16
  held : 1 ≤ r.held ∧ r.held ≤ n
  sum : r.sum ≤ 1023 * r.held
  average : ∀ a ∈ r.average, a ≤ 1023

/-- A record that holds no sample is in order when its average is. -/
theorem wf_of_empty {r : DescriptorRecord} (window : r.window = none) (held : r.held = 0) (sum : r.sum = 0)
    (average : ∀ a ∈ r.average, a ≤ 1023) : r.Wf := by
  unfold DescriptorRecord.Wf
  rw [window]
  exact ⟨⟨held, sum⟩, average⟩

/-- A window still short of full is in order. -/
theorem Filling.wf {r : DescriptorRecord} {n : Nat} (h : Filling r n) (short : r.held ≠ n) : r.Wf := by
  unfold DescriptorRecord.Wf
  rw [h.window]
  exact ⟨⟨h.length.1, h.length.2, h.held.1, Nat.lt_of_le_of_ne h.held.2 short, h.sum⟩, h.average⟩

/-- A sample of at most 1023 joins the window in progress, or begins one of the entry's length (R132). -/
theorem accept_filling {r : DescriptorRecord} {e : DescriptorEntry} {code : Nat} (w : r.Wf) (length : 1 ≤ e.window ∧ e.window ≤ 16)
    (small : code ≤ 1023) (now : Time) : ∃ n, Filling (r.accept e code now) n := by
  obtain ⟨filled, average⟩ := w
  split at filled
  · next empty =>
    obtain ⟨held, sum⟩ := filled
    refine ⟨e.window, if_pos held, length, ?_, ?_, average⟩
    · simp only [DescriptorRecord.accept, held]
      omega
    · simp only [DescriptorRecord.accept, held, sum]
      omega
  · next n inProgress =>
    obtain ⟨positive, bounded, begun, short, sum⟩ := filled
    refine ⟨n, (if_neg (by omega)).trans inProgress, ⟨positive, bounded⟩, ?_, ?_, average⟩
    · simp only [DescriptorRecord.accept]
      omega
    · simp only [DescriptorRecord.accept]
      omega

/-- The average of samples of at most 1023 is at most 1023 (R133). -/
theorem averageOf_le {sum n : Nat} (positive : 1 ≤ n) (h : sum ≤ 1023 * n) : averageOf sum n ≤ 1023 := by
  have below : (sum + n / 2) / n < 1024 := (Nat.div_lt_iff_lt_mul positive).mpr (by omega)
  exact Nat.le_of_lt_succ below

/-- A full window completes in order: its record empties, and its average is one of samples of at most 1023 (R133). -/
theorem Filling.complete_wf {r : DescriptorRecord} {n : Nat} (h : Filling r n) (full : r.held = n) (e : DescriptorEntry) :
    (r.complete e n).Wf := by
  refine wf_of_empty rfl rfl rfl fun a completed => ?_
  obtain rfl : averageOf r.sum n = a := Option.some.inj completed
  exact averageOf_le h.length.1 (full ▸ h.sum)

/-- A stale timer's expiry leaves a record in order: its window is discarded, its average stands (R136). -/
theorem expire_wf {r : DescriptorRecord} (w : r.Wf) : r.expire.Wf := wf_of_empty rfl rfl rfl w.2

/-- A record as a reset leaves it is in order (R131). -/
theorem afterReset_wf : DescriptorRecord.afterReset.Wf := wf_of_empty rfl rfl rfl nofun

/-- A DESCRIPTOR entry reads with a window of 1 to 16 (R5, R7). -/
theorem descriptor_window {t : TableStore} {d : Fin 16} {e : DescriptorEntry} (h : (t.descriptor d).2 = some e) :
    1 ≤ e.window ∧ e.window ≤ 16 := by
  obtain ⟨ws, _, rfl⟩ := Option.map_eq_some_iff.mp h
  simp only [descriptorOf, clampTo]
  omega

/-! ## All records -/

/-- Each descriptor's record is in order. -/
def InOrder (v : Vector DescriptorRecord 16) : Prop := ∀ d : Fin 16, (v[d]).Wf

/-- One record rewritten, in order where it was. -/
theorem InOrder.upd {v : Vector DescriptorRecord 16} (w : InOrder v) {d : Fin 16} {f : DescriptorRecord → DescriptorRecord}
    (h : (v[d]).Wf → (f v[d]).Wf) : InOrder (upd v d f) := by
  intro j
  rw [upd_get]
  split
  · next same =>
    subst same
    exact h (w d)
  · exact w j

/-- From the first state to the second the descriptors stay in order. -/
def Kept (s u : State) : Prop := InOrder s.sampler.descriptors → InOrder u.sampler.descriptors

theorem Kept.refl (s : State) : Kept s s := id

theorem Kept.trans {s u v : State} (h : Kept s u) (k : Kept u v) : Kept s v := k ∘ h

/-- Where the descriptors stand they stay in order. -/
theorem Kept.of_same {s u : State} (h : u.sampler.descriptors = s.sampler.descriptors) : Kept s u := by
  unfold Kept
  rw [h]
  exact id

/-- A step taken after a change that leaves the descriptors. -/
theorem Kept.after {s u v : State} (k : Kept u v) (same : u.sampler.descriptors = s.sampler.descriptors) : Kept s v := (Kept.of_same same).trans k

theorem Kept.of_sampler {s u : State} (h : u.sampler = s.sampler) : Kept s u := .of_same (by rw [h])

theorem Kept.ite {c : Prop} [Decidable c] {s u v : State} (hu : Kept s u) (hv : Kept s v) : Kept s (if c then u else v) := by
  split
  · exact hu
  · exact hv

/-- Steps taken one after another, each keeping the order. -/
theorem Kept.foldl {β : Type} {f : State → β → State} (h : ∀ s b, Kept s (f s b)) (l : List β) (s : State) : Kept s (l.foldl f s) :=
  foldl_rel .refl .trans h l s

theorem setPort_kept (s : State) (p : PortId) (q : Port) : Kept s (s.setPort p q) := .of_sampler (s.setPort_sampler p q)

theorem withTables_kept (s : State) (t : TableStore) : Kept s (s.withTables t) := .of_same rfl

theorem events_kept {s u : State} (h : TouchesEvents s u) : Kept s u := by
  obtain ⟨t, e, rfl, _⟩ := h
  exact .of_same rfl

theorem targets_kept {s u : State} (h : TouchesTargets s u) : Kept s u := by
  obtain ⟨t, g, rfl, _⟩ := h
  exact .of_same rfl

theorem gauges_kept {s u : State} (h : TouchesGauges s u) : Kept s u := by
  obtain ⟨t, g, rfl, _⟩ := h
  exact .of_same rfl

theorem lamps_kept {s u : State} (h : TouchesLamps s u) : Kept s u := by
  obtain ⟨t, a, b, l, rfl, _⟩ := h
  exact .of_same rfl

theorem phase_kept {s u : State} (h : TouchesPhase s u) : Kept s u := by
  obtain ⟨t, a, b, l, f, rfl, _⟩ := h
  exact .of_same rfl

theorem engine_kept {s u : State} (h : TouchesEngine s u) : Kept s u := by
  obtain ⟨t, a, b, e, n, l, f, g, rfl, _⟩ := h
  exact .of_same rfl

theorem resolveAll_kept (s : State) : Kept s (resolveAll s) := lamps_kept (resolveAll_touches s)

/-! ## The samples -/

/-- The results of a window go to the event block and the gauges (R133, R135). -/
theorem announceWindow_kept (s : State) (d : Fin 16) (e : DescriptorEntry) (before after : ThresholdState) (average : Nat) :
    Kept s (announceWindow s d e before after average) :=
  (Kept.ite (.refl s) (events_kept (reportTo_touches s _ _))).trans (targets_kept (handReading_touches _ _ _))

/-- A sample of at most 1023 presented to a descriptor (R132, R133). -/
theorem presentSample_kept (s : State) (d : Fin 16) {code : Nat} (small : code ≤ 1023) : Kept s (presentSample s d code) := by
  have read := withTables_kept s (s.tables.descriptor d).1
  have written (r : DescriptorRecord) (h : ((s.sampler.descriptors[d]).Wf → r.Wf)) :
      Kept s ((s.withTables (s.tables.descriptor d).1).updDescriptor d fun _ => r) := fun w => w.upd h
  unfold presentSample
  simp only
  split
  · exact read
  · next e good =>
    have filling (w : (s.sampler.descriptors[d]).Wf) : ∃ n, Filling ((s.sampler.descriptors[d]).accept e code s.now) n :=
      accept_filling w (descriptor_window good) small s.now
    split
    · next n window =>
      have fills (w : (s.sampler.descriptors[d]).Wf) : Filling ((s.sampler.descriptors[d]).accept e code s.now) n := by
        obtain ⟨m, h⟩ := filling w
        obtain rfl : m = n := Option.some.inj (h.window.symm.trans window)
        exact h
      split
      · next full => exact (written _ fun w => (fills w).complete_wf full e).trans (announceWindow_kept _ _ _ _ _ _)
      · next short => exact written _ fun w => (fills w).wf short
    · next noWindow =>
      refine written _ fun w => ?_
      obtain ⟨m, h⟩ := filling w
      exact absurd (h.window.symm.trans noWindow) nofun

/-- The whole readings of a SENDER frame are presented as at most 1023 (R45). -/
theorem routeSender_kept (s : State) (e : RouteEntry) (payload : List Byte) : Kept s (routeSender s e payload) := by
  refine Kept.foldl (fun u j => ?_) _ s
  split
  · exact Kept.ite (presentSample_kept u _ (Nat.min_le_left _ _)) (.refl u)
  · exact .refl u

/-! ## The route walk -/

theorem forward_kept (s : State) (p : PortId) (e : RouteEntry) (f : Frame) : Kept s (forward s p e f) := setPort_kept s _ _

theorem routeReport_kept (s : State) (f : Frame) : Kept s (routeReport s f) := by
  have read := withTables_kept s (matchPod f.src (List.finRange 12) s.tables).1
  have counted (u : State) : Kept u u.countReportError := .of_same rfl
  unfold routeReport
  simp only
  split
  · exact read.trans (Kept.ite (lamps_kept (takeReport_touches _ _ _)) (counted _))
  · exact read.trans (counted _)

/-- The matching entry's action, with the copy that may follow it (R44 to R48). -/
theorem performRoute_kept (s : State) (p : PortId) (e : RouteEntry) (f : Frame) : Kept s (performRoute s p e f) := by
  have also {u : State} (h : Kept s u) : Kept s (if e.alsoForward then forward u p e f else u) := Kept.ite (h.trans (forward_kept u p e f)) h
  unfold performRoute
  simp only
  split
  · exact also (events_kept (routeSwitch_touches s e f.payload))
  · exact also (routeSender_kept s e f.payload)
  · exact also (routeReport_kept s f)
  · exact forward_kept s p e f
  · exact .refl s

theorem walkRoute_kept (s : State) (p : PortId) (e : DirectoryEntry) (f : Frame) : Kept s (walkRoute s p e f) := by
  unfold walkRoute
  split
  · exact .of_same rfl
  · next i _ =>
    have read := withTables_kept s (findRoute f.kind 8 i.val s.tables).1
    simp only
    split
    · exact read.trans (performRoute_kept _ p _ f)
    · exact read.trans (.of_same rfl)
    · exact read

theorem hear_kept (s : State) (src : Fin 64) (e : DirectoryEntry) : Kept s (hear s src e) := by
  have heard : Kept s (s.updSource src fun _ => ⟨.heard, watchDeadline s.now e.watch⟩) := .of_same rfl
  exact Kept.ite (heard.trans (events_kept (reportTo_touches _ _ _))) heard

/-- A routed frame reaches descriptors by SENDER entries alone (R45). -/
theorem routeFrame_kept (s : State) (p : PortId) (f : Frame) : Kept s (routeFrame s p f) := by
  have read := withTables_kept s (s.tables.directory f.src).1
  unfold routeFrame
  simp only
  split
  · exact read
  · exact read.trans (Kept.ite ((hear_kept _ _ _).trans (walkRoute_kept _ p _ f)) (.of_same rfl))

/-! ## The resets -/

/-- A stale timer started at a reset leaves the rest of its record (R131). -/
theorem startStale_inOrder (now : Time) (p : TableStore × Vector DescriptorRecord 16) (d : Fin 16) (w : InOrder p.2) :
    InOrder (startStale now p d).2 := by
  unfold startStale
  simp only
  split
  · exact w.upd id
  · exact w

theorem resetSampler_kept (s : State) : Kept s (resetSampler s) := by
  have started := foldl_rel (R := fun p q : TableStore × Vector DescriptorRecord 16 => InOrder p.2 → InOrder q.2) (fun _ => id)
    (fun h k => k ∘ h) (startStale_inOrder s.now) (List.finRange 16) (s.tables, s.sampler.descriptors)
  intro w
  simp only [resetSampler]
  exact started w

/-- A reset leaves every record empty, whatever it was (R131). -/
theorem resetBlocks_inOrder (keep : Bool) (s : State) : InOrder (resetBlocks keep s).sampler.descriptors := by
  have cleared : InOrder (clearBlocks keep s).sampler.descriptors := by
    intro d
    have fixed : (clearBlocks keep s).sampler.descriptors[d] = DescriptorRecord.afterReset := Vector.getElem_replicate ..
    rw [fixed]
    exact afterReset_wf
  have routes (u : State) : Kept u (resetRoutes u) := by
    obtain ⟨t, v, same, _⟩ := resetRoutes_touches u
    exact .of_sampler (by rw [same])
  have events (u : State) : Kept u (resetEvents u) := by
    obtain ⟨t, v, same, _⟩ := resetEvents_touches u
    exact .of_sampler (by rw [same])
  exact lamps_kept (resetLamps_touches _) (resetSampler_kept _ (events _ (routes _ cleared)))

theorem resetBlocks_kept (keep : Bool) (s : State) : Kept s (resetBlocks keep s) := fun _ => resetBlocks_inOrder keep s

/-! ## The line -/

theorem judgeFrame_kept (s : State) (p : PortId) (r : Reception) : Kept s (judgeFrame s p r) := by
  have accepted (f : Frame) : Kept s (acceptFrame s p f) :=
    (withTables_kept s _).trans (setPort_kept _ p _)
  exact Kept.ite (setPort_kept s p _) (Kept.ite (accepted _) (setPort_kept s p _))

theorem settleRefill_kept (s : State) (p : PortId) : Kept s (settleRefill s p) :=
  (setPort_kept s p _).trans (lamps_kept (settleRefill_touches s p).1)

theorem owedRefill_kept (s : State) (p : PortId) : Kept s (owedRefill s p) := Kept.ite (settleRefill_kept s p) (.refl s)

/-- The restart that a freed reply was waited for (R171). -/
theorem afterFreeing_kept (e : QueueEntry) (s : State) : Kept s (afterFreeing e s) := Kept.ite (resetBlocks_kept true s) (.refl s)

theorem sendHead_kept {refilled : State → State} (h : ∀ u, Kept u (refilled u)) (s : State) (p : PortId) : Kept s (sendHead s p refilled) := by
  unfold sendHead
  simp only
  split
  · exact ((setPort_kept s p _).trans (h _)).trans (afterFreeing_kept _ _)
  · exact .refl s

theorem abandonHead_kept {refilled : State → State} (h : ∀ u, Kept u (refilled u)) (s : State) (p : PortId) :
    Kept s (abandonHead s p refilled) := by
  unfold abandonHead
  simp only
  split
  · exact (((setPort_kept s p _).trans (lamps_kept (markDirty_touches _ _).1)).trans (h _)).trans (afterFreeing_kept _ _)
  · exact .refl s

/-! ## The services -/

theorem releasePool_kept (s : State) (p : PortId) : Kept s (s.releasePool p) := setPort_kept s p _

theorem answer_kept (s : State) (p : PortId) (f : Frame) (status : Status) (data : List Byte) : Kept s (answer s p f status data) :=
  setPort_kept s p _

/-- An answer with its pool released (R159). -/
theorem answered_kept (s : State) (p : PortId) (f : Frame) (status : Status) (data : List Byte) :
    Kept s ((answer s p f status data).releasePool p) := (answer_kept s p f status data).trans (releasePool_kept _ p)

theorem answerStore_kept (s : State) (requester : LoomAddr) (p : PortId) (status : Status) : Kept s (answerStore s requester p status) :=
  setPort_kept s p _

/-- A request performed and released (R159). -/
theorem request_kept {s : State} {p : PortId} {f : Frame} {g : State → State} (h : Kept s (g s)) :
    Kept s ((unlessBusy s p f g).releasePool p) :=
  (Kept.ite h (answer_kept s p f _ _)).trans (releasePool_kept _ p)

theorem readTable_kept (s : State) (p : PortId) (f : Frame) (area : Byte) (index count : Nat) : Kept s (readTable s p f area index count) := by
  unfold readTable
  split
  · exact Kept.ite (answer_kept s p f _ _) (answer_kept s p f _ _)
  · exact answer_kept s p f _ _

theorem answerPortGroup_kept (s : State) (p : PortId) (f : Frame) (g : PortId) (clear : Bool) : Kept s (answerPortGroup s p f g clear) := by
  have cleared : Kept s (if clear then clearPortCounters s g else s) := Kept.ite (setPort_kept s g _) (.refl s)
  exact (cleared.trans (answer_kept _ p f _ _)).trans (answer_kept _ p f _ _)

theorem readCounters_kept (s : State) (p : PortId) (f : Frame) (group clear : Nat) : Kept s (readCounters s p f group clear) := by
  have cleared : Kept s (if clear = 1 then clearDeviceCounters s else s) := Kept.ite (.of_same rfl) (.refl s)
  unfold readCounters
  split
  · exact answer_kept s p f _ _
  · split
    · exact answerPortGroup_kept s p f _ _
    · exact answerPortGroup_kept s p f _ _
    · exact cleared.trans (answer_kept _ p f _ _)
    · exact answer_kept s p f _ _

theorem beginStore_kept (s : State) (p : PortId) (f : Frame) : Kept s (beginStore s p f) := by
  unfold beginStore
  split
  · next t _ => exact (withTables_kept s t).trans (answer_kept _ p f _ _)
  · exact .of_same rfl

theorem dropDisabled_kept (s : State) (c : Fin 32) : Kept s (dropDisabled s c) := Kept.ite (.refl s) (.of_same rfl)

/-- A write of EVENT words drops pending edges and calls for a choice (R68, R72). -/
theorem eventsWritten_kept (s : State) (cs : List (Fin 32)) : Kept s (eventsWritten s cs) :=
  (Kept.foldl dropDisabled_kept cs s).trans (.of_same rfl)

theorem writeTable_kept (s : State) (a : Area) (index : Nat) (ws : List Word16) : Kept s (writeTable s a index ws) := by
  have written := withTables_kept s { s.tables.writeWords (address a index) ws with source := .modified }
  unfold writeTable
  simp only
  split
  · exact written.trans (eventsWritten_kept _ _)
  · exact written.trans (resolveAll_kept _)
  · exact written

theorem loadLimp_kept (s : State) (v : LimpVariant) : Kept s (loadLimp s v) :=
  ((withTables_kept s _).trans (eventsWritten_kept _ _)).trans (resolveAll_kept _)

theorem clearLatches_kept (s : State) (ls : List (Fin 32)) : Kept s (clearLatches s ls) := by
  unfold clearLatches
  exact (lamps_kept (resolveLoads_touches _ _ _)).after rfl

/-- A RESTART accepted resets the part at once or waits for its reply to leave (R171). -/
theorem beginRestart_kept (s : State) (p : PortId) (f : Frame) : Kept s (beginRestart s p f) := by
  have replied := setPort_kept s p ((s.port p).offerReply (replyFrame s f.src (requestCode f) .done []) true)
  exact replied.trans (Kept.ite (resetBlocks_kept true _) (.of_same rfl))

/-! ## Every command -/

/-- What a command answers, if it answers a state, has the descriptors in order where the command found them so. -/
def KeepsOrder (s : State) (r : Result) : Prop := ∀ t, r = .next t → Kept s t

theorem keepsOrder_next {s t : State} (h : Kept s t) : KeepsOrder s (.next t) := by
  intro u e
  cases e
  exact h

/-- A step of the blocks whose meaning keeps the order. -/
theorem live_keepsOrder {dt : Time} {s : State} {f : State → State} (h : ∀ u, Kept u (f u)) : KeepsOrder s (live dt s f) :=
  keepsOrder_next (Kept.ite (h (s.elapse dt)) (.refl _))

/-- A power-on resets every block, or its loading is cut short with the descriptors left (R173, log 6). -/
theorem execPowerOn_keepsOrder (dt : Time) (rise : FeedRise) (s : State) : KeepsOrder s (execPowerOn dt rise s) :=
  keepsOrder_next (Kept.ite (Kept.ite (fun _ => resetBlocks_inOrder _ _) (.of_same rfl)) (.of_same rfl))

theorem execBrownOut_keepsOrder (dt : Time) (s : State) : KeepsOrder s (execBrownOut dt s) :=
  keepsOrder_next (Kept.ite (fun _ => resetBlocks_inOrder _ _) (.of_same rfl))

theorem execBitsDisturbedInStorage_keepsOrder (dt : Time) (a : Area) (i : Nat) (d : Word16) (s : State) :
    KeepsOrder s (execBitsDisturbedInStorage dt a i d s) := by
  unfold execBitsDisturbedInStorage
  simp only
  split
  · exact keepsOrder_next (.of_same rfl)
  · intro t e
    cases e

theorem execByteReceived_keepsOrder (dt : Time) (p : PortId) (edge : ByteEdge) (s : State) : KeepsOrder s (execByteReceived dt p edge s) :=
  keepsOrder_next ((Kept.of_same (u := s.elapse dt) rfl).trans (Kept.ite (setPort_kept _ p _) (setPort_kept _ p _)))

theorem execConversion_keepsOrder (dt : Time) (c0 c1 c2 c3 : BitVec 10) (s : State) : KeepsOrder s (execConversion dt c0 c1 c2 c3 s) :=
  live_keepsOrder fun u => by
    have presented (v : State) (d : Fin 16) (c : BitVec 10) : Kept v (presentSample v d c.toNat) :=
      presentSample_kept v d (Nat.le_of_lt_succ c.isLt)
    have restarted : Kept u { u with sampler := { u.sampler with conversionTimer := u.sampler.conversionTimer + Config.ms20 } } := .of_same rfl
    exact Kept.ite ((((restarted.trans (presented _ 0 c0)).trans (presented _ 1 c1)).trans (presented _ 2 c2)).trans (presented _ 3 c3)) (.refl u)

theorem execStaleExpiry_keepsOrder (dt : Time) (d : Fin 16) (s : State) : KeepsOrder s (execStaleExpiry dt d s) :=
  live_keepsOrder fun u => Kept.ite (fun w => w.upd expire_wf) (.refl u)

theorem execLowSupplyHold_keepsOrder (dt : Time) (s : State) : KeepsOrder s (execLowSupplyHold dt s) :=
  live_keepsOrder fun u => by
    rw [EventChannels.abandonStore_eq u]
    exact .of_same rfl

theorem execFeedFellBelow2V5_keepsOrder (dt : Time) (s : State) : KeepsOrder s (execFeedFellBelow2V5 dt s) := by
  refine keepsOrder_next (.of_same ?_)
  split <;> rfl

theorem execIgnitionInputChange_keepsOrder (dt : Time) (on : Bool) (s : State) : KeepsOrder s (execIgnitionInputChange dt on s) :=
  keepsOrder_next (Kept.ite (.of_same rfl) (.of_same rfl))

theorem execFrameEnd_keepsOrder (dt : Time) (p : PortId) (s : State) : KeepsOrder s (execFrameEnd dt p s) :=
  live_keepsOrder fun u => Kept.ite ((setPort_kept u p _).trans (judgeFrame_kept _ p _)) (.refl u)

theorem execSkipEnd_keepsOrder (dt : Time) (p : PortId) (s : State) : KeepsOrder s (execSkipEnd dt p s) :=
  live_keepsOrder fun u => Kept.ite (setPort_kept u p _) (.refl u)

theorem execTransmitStart_keepsOrder (dt : Time) (p : PortId) (s : State) : KeepsOrder s (execTransmitStart dt p s) :=
  live_keepsOrder fun u => Kept.ite (setPort_kept u p _) (.refl u)

theorem execSentByteReadBackEqual_keepsOrder (dt : Time) (p : PortId) (s : State) : KeepsOrder s (execSentByteReadBackEqual dt p s) :=
  live_keepsOrder fun u => by
    dsimp only
    split
    · exact Kept.ite (setPort_kept u p _) (.refl u)
    · exact .refl u

theorem execFrameSent_keepsOrder (dt : Time) (part : Freeing) (s : State) : KeepsOrder s (execFrameSent dt part s) :=
  live_keepsOrder fun u => by
    cases part with
    | withRefill p => exact sendHead_kept (settleRefill_kept · p) u p
    | alone p => exact sendHead_kept (setPort_kept · p _) u p
    | refill p => exact owedRefill_kept u p

theorem execCollision_keepsOrder (dt : Time) (part : Freeing) (s : State) : KeepsOrder s (execCollision dt part s) :=
  live_keepsOrder fun u => by
    cases part with
    | withRefill p => exact abandonHead_kept (settleRefill_kept · p) u p
    | alone p => exact abandonHead_kept (setPort_kept · p _) u p
    | refill p => exact owedRefill_kept u p

theorem execTransitCopy_keepsOrder (dt : Time) (p : PortId) (s : State) : KeepsOrder s (execTransitCopy dt p s) :=
  live_keepsOrder fun u => by
    split
    · exact ((withTables_kept u _).trans (Kept.ite (.refl _) (setPort_kept _ _ _))).trans (releasePool_kept _ p)
    · exact .refl u

theorem execRouteWalk_keepsOrder (dt : Time) (p : PortId) (s : State) : KeepsOrder s (execRouteWalk dt p s) :=
  live_keepsOrder fun u => by
    split
    · exact (routeFrame_kept u p _).trans (releasePool_kept _ p)
    · exact .refl u

theorem execActionTake_keepsOrder (dt : Time) (s : State) : KeepsOrder s (execActionTake dt s) :=
  live_keepsOrder fun u => Kept.ite (.refl u) (engine_kept (chooseFrom_engine _ u))

theorem execChainResume_keepsOrder (dt : Time) (s : State) : KeepsOrder s (execChainResume dt s) :=
  live_keepsOrder fun u => by
    split
    · exact engine_kept (resumeSlot_engine u _)
    · exact .refl u

theorem execWaitExpiry_keepsOrder (dt : Time) (k : Fin 4) (s : State) : KeepsOrder s (execWaitExpiry dt k s) :=
  live_keepsOrder fun u => Kept.ite (.of_same rfl) (.refl u)

theorem execWatchExpiry_keepsOrder (dt : Time) (src : Fin 64) (s : State) : KeepsOrder s (execWatchExpiry dt src s) :=
  live_keepsOrder fun u => by
    obtain ⟨t, e, r, expired, _⟩ := expireWatch_touches u src
    exact Kept.ite (.of_sampler (by rw [expired])) (.refl u)

theorem execIgnitionDebounceExpiry_keepsOrder (dt : Time) (s : State) : KeepsOrder s (execIgnitionDebounceExpiry dt s) :=
  live_keepsOrder fun u => by
    obtain ⟨t, e, expired, _⟩ := expireDebounce_touches u
    exact Kept.ite (.of_sampler (by rw [expired])) (.refl u)

theorem execLoadFadeExpiry_keepsOrder (dt : Time) (s : State) : KeepsOrder s (execLoadFadeExpiry dt s) :=
  live_keepsOrder fun u => by
    split
    · exact (lamps_kept (resolveLoads_touches _ _ _)).after rfl
    · exact .refl u

theorem execCoolOffExpiry_keepsOrder (dt : Time) (l : Fin 32) (s : State) : KeepsOrder s (execCoolOffExpiry dt l s) :=
  live_keepsOrder fun u => by
    split
    · exact (lamps_kept (resolveLoads_touches _ _ _)).after rfl
    · exact .refl u

theorem execRefreshExpiry_keepsOrder (dt : Time) (P : Fin 12) (s : State) : KeepsOrder s (execRefreshExpiry dt P s) :=
  live_keepsOrder fun u => Kept.ite (lamps_kept ((produceLampcmd_touches u P).trans (startRefresh_touches _ P)).1) (.refl u)

theorem execReportTimerExpiry_keepsOrder (dt : Time) (P : Fin 12) (s : State) : KeepsOrder s (execReportTimerExpiry dt P s) :=
  live_keepsOrder fun u => Kept.ite (.of_same rfl) (.refl u)

theorem execFlasherTick_keepsOrder (dt : Time) (s : State) : KeepsOrder s (execFlasherTick dt s) :=
  live_keepsOrder fun u => by
    split
    · exact Kept.ite (phase_kept (tickFlasher_touches u _)) (.refl u)
    · exact .refl u

theorem execCoilPulse_keepsOrder (dt : Time) (s : State) : KeepsOrder s (execCoilPulse dt s) :=
  live_keepsOrder fun u => Kept.ite (.of_same rfl) (.refl u)

theorem execGateExpiry_keepsOrder (dt : Time) (s : State) : KeepsOrder s (execGateExpiry dt s) :=
  live_keepsOrder fun u => by
    split
    · exact (targets_kept (handReading_touches _ _ _)).after rfl
    · exact .refl u

theorem execGaugeUpdate_keepsOrder (dt : Time) (s : State) : KeepsOrder s (execGaugeUpdate dt s) :=
  live_keepsOrder fun u => by
    split
    · exact (gauges_kept (updateGauges_touches _)).after rfl
    · exact .refl u

theorem execIdentify_keepsOrder (dt : Time) (p : PortId) (s : State) : KeepsOrder s (execIdentify dt p s) :=
  live_keepsOrder fun u => by
    split
    · exact answered_kept u p _ _ _
    · exact .refl u

theorem execBadRequest_keepsOrder (dt : Time) (p : PortId) (s : State) : KeepsOrder s (execBadRequest dt p s) :=
  live_keepsOrder fun u => by
    split
    · exact answered_kept u p _ _ _
    · exact .refl u

theorem execReadTable_keepsOrder (dt : Time) (p : PortId) (s : State) : KeepsOrder s (execReadTable dt p s) :=
  live_keepsOrder fun u => by
    split
    · exact request_kept (readTable_kept u p _ _ _ _)
    · exact .refl u

theorem execWriteTable_keepsOrder (dt : Time) (p : PortId) (s : State) : KeepsOrder s (execWriteTable dt p s) :=
  live_keepsOrder fun u => by
    split
    · refine request_kept (Kept.ite (answer_kept u p _ _ _) ?_)
      split
      · exact (writeTable_kept u _ _ _).trans (answer_kept _ p _ _ _)
      · exact answer_kept u p _ _ _
    · exact .refl u

theorem execReadState_keepsOrder (dt : Time) (p : PortId) (s : State) : KeepsOrder s (execReadState dt p s) :=
  live_keepsOrder fun u => by
    split
    · refine request_kept ?_
      split
      · exact answer_kept u p _ _ _
      · exact answer_kept u p _ _ _
    · exact .refl u

theorem execReadCounters_keepsOrder (dt : Time) (p : PortId) (s : State) : KeepsOrder s (execReadCounters dt p s) :=
  live_keepsOrder fun u => by
    split
    · exact request_kept (readCounters_kept u p _ _ _)
    · exact .refl u

theorem execClearLatch_keepsOrder (dt : Time) (p : PortId) (s : State) : KeepsOrder s (execClearLatch dt p s) :=
  live_keepsOrder fun u => by
    split
    · refine request_kept ?_
      split
      · exact (clearLatches_kept u _).trans (answer_kept _ p _ _ _)
      · exact answer_kept u p _ _ _
    · exact .refl u

theorem execStore_keepsOrder (dt : Time) (p : PortId) (s : State) : KeepsOrder s (execStore dt p s) :=
  live_keepsOrder fun u => by
    split
    · exact request_kept (beginStore_kept u p _)
    · exact .refl u

theorem execLoadLimp_keepsOrder (dt : Time) (p : PortId) (s : State) : KeepsOrder s (execLoadLimp dt p s) :=
  live_keepsOrder fun u => by
    split
    · refine request_kept (Kept.ite (answer_kept u p _ _ _) ?_)
      split
      · exact (loadLimp_kept u _).trans (answer_kept _ p _ _ _)
      · exact answer_kept u p _ _ _
    · exact .refl u

theorem execRestart_keepsOrder (dt : Time) (p : PortId) (s : State) : KeepsOrder s (execRestart dt p s) :=
  live_keepsOrder fun u => by
    split
    · exact request_kept (beginRestart_kept u p _)
    · exact .refl u

theorem execStoreComplete_keepsOrder (dt : Time) (verified : Bool) (s : State) : KeepsOrder s (execStoreComplete dt verified s) :=
  live_keepsOrder fun u => by
    split
    · exact Kept.ite ((answerStore_kept _ _ _ _).after rfl) ((answerStore_kept _ _ _ _).after rfl)
    · exact .refl u
    · exact .refl u

/-- Every command keeps the descriptors in order. -/
theorem exec_keepsOrder (c : Instr) (s : State) : KeepsOrder s (exec c s) := by
  cases c with
  | powerOn dt rise => exact execPowerOn_keepsOrder dt rise s
  | brownOut dt => exact execBrownOut_keepsOrder dt s
  | lowSupplyHold dt => exact execLowSupplyHold_keepsOrder dt s
  | feedFellBelow2V5 dt => exact execFeedFellBelow2V5_keepsOrder dt s
  | bitsDisturbedInStorage dt a i d => exact execBitsDisturbedInStorage_keepsOrder dt a i d s
  | ignitionInputChange dt on => exact execIgnitionInputChange_keepsOrder dt on s
  | byteReceived dt p edge => exact execByteReceived_keepsOrder dt p edge s
  | frameEnd dt p => exact execFrameEnd_keepsOrder dt p s
  | skipEnd dt p => exact execSkipEnd_keepsOrder dt p s
  | transmitStart dt p => exact execTransmitStart_keepsOrder dt p s
  | sentByteReadBackEqual dt p => exact execSentByteReadBackEqual_keepsOrder dt p s
  | frameSent dt part => exact execFrameSent_keepsOrder dt part s
  | collision dt part => exact execCollision_keepsOrder dt part s
  | transitCopy dt p => exact execTransitCopy_keepsOrder dt p s
  | routeWalk dt p => exact execRouteWalk_keepsOrder dt p s
  | actionTake dt => exact execActionTake_keepsOrder dt s
  | chainResume dt => exact execChainResume_keepsOrder dt s
  | waitExpiry dt k => exact execWaitExpiry_keepsOrder dt k s
  | watchExpiry dt src => exact execWatchExpiry_keepsOrder dt src s
  | ignitionDebounceExpiry dt => exact execIgnitionDebounceExpiry_keepsOrder dt s
  | loadFadeExpiry dt => exact execLoadFadeExpiry_keepsOrder dt s
  | coolOffExpiry dt l => exact execCoolOffExpiry_keepsOrder dt l s
  | refreshExpiry dt P => exact execRefreshExpiry_keepsOrder dt P s
  | reportTimerExpiry dt P => exact execReportTimerExpiry_keepsOrder dt P s
  | flasherTick dt => exact execFlasherTick_keepsOrder dt s
  | conversion dt c0 c1 c2 c3 => exact execConversion_keepsOrder dt c0 c1 c2 c3 s
  | staleExpiry dt d => exact execStaleExpiry_keepsOrder dt d s
  | coilPulse dt => exact execCoilPulse_keepsOrder dt s
  | gateExpiry dt => exact execGateExpiry_keepsOrder dt s
  | gaugeUpdate dt => exact execGaugeUpdate_keepsOrder dt s
  | identify dt p => exact execIdentify_keepsOrder dt p s
  | badRequest dt p => exact execBadRequest_keepsOrder dt p s
  | readTable dt p => exact execReadTable_keepsOrder dt p s
  | writeTable dt p => exact execWriteTable_keepsOrder dt p s
  | readState dt p => exact execReadState_keepsOrder dt p s
  | readCounters dt p => exact execReadCounters_keepsOrder dt p s
  | clearLatch dt p => exact execClearLatch_keepsOrder dt p s
  | store dt p => exact execStore_keepsOrder dt p s
  | loadLimp dt p => exact execLoadLimp_keepsOrder dt p s
  | restart dt p => exact execRestart_keepsOrder dt p s
  | storeComplete dt verified => exact execStoreComplete_keepsOrder dt verified s

/-- Settles O46: an idle step changes nothing, and every command keeps the descriptors in order. -/
theorem stepKeepsDescriptors : Obligations.StepKeepsDescriptors := by
  intro s t w e
  unfold step at e
  split at e
  · cases e
    exact w
  · next c rest _ => exact exec_keepsOrder c { s with pending := rest } t e w

end Sys2Proof.Machine.DescriptorSteps
end

section
/-! PROOFS. The gauges taken one after another (R143, R144): where each is rewritten from its own record and the words of the tables, the
order does not show, and the reads between them do not either. -/

namespace Sys2Proof.Machine.GaugePasses

/-- One step of a pass over the gauges: it reads the tables and rewrites its gauge's record as `record` has it, which no block read made before
it can change. -/
structure Rewrites (record : TableStore → Fin 4 → GaugeRecord → GaugeRecord) (step : TableStore × GaugeDrive → Fin 4 → TableStore × GaugeDrive) :
    Prop where
  reads : ∀ (p : TableStore × GaugeDrive) (g : Fin 4), p.1.Reads (step p g).1
  drive : ∀ (p : TableStore × GaugeDrive) (g : Fin 4), (step p g).2 = { p.2 with gauges := upd p.2.gauges g (record p.1 g) }
  stable : ∀ {t u : TableStore}, t.Reads u → record u = record t

section Pass

variable {record : TableStore → Fin 4 → GaugeRecord → GaugeRecord} {step : TableStore × GaugeDrive → Fin 4 → TableStore × GaugeDrive}

/-- A pass over some gauges rewrites the record of each once, from the tables as the pass finds them. -/
theorem Rewrites.foldl (h : Rewrites record step) : ∀ (gs : List (Fin 4)), gs.Nodup → ∀ p : TableStore × GaugeDrive,
    p.1.Reads (gs.foldl step p).1 ∧ (gs.foldl step p).2.fan = p.2.fan ∧ (gs.foldl step p).2.updateTimer = p.2.updateTimer ∧
      ∀ j : Fin 4, (gs.foldl step p).2.gauges[j] = if j ∈ gs then record p.1 j p.2.gauges[j] else p.2.gauges[j] := by
  intro gs
  induction gs with
  | nil => exact fun _ p => ⟨.refl p.1, rfl, rfl, fun _ => rfl⟩
  | cons g gs ih =>
    intro distinct p
    obtain ⟨new, distinct⟩ := List.nodup_cons.mp distinct
    obtain ⟨reads, fan, timer, records⟩ := ih distinct (step p g)
    rw [List.foldl_cons]
    refine ⟨(h.reads p g).trans reads, fan.trans (by rw [h.drive]), timer.trans (by rw [h.drive]), fun j => ?_⟩
    rw [records j, h.stable (h.reads p g), h.drive, upd_get]
    by_cases first : g = j
    · subst first
      simp [new]
    · simp [first, Ne.symm first]

/-- A pass over all four gauges. -/
theorem Rewrites.all (h : Rewrites record step) (p : TableStore × GaugeDrive) :
    p.1.Reads ((List.finRange 4).foldl step p).1 ∧ ((List.finRange 4).foldl step p).2.fan = p.2.fan ∧
      ((List.finRange 4).foldl step p).2.updateTimer = p.2.updateTimer ∧
        ∀ j : Fin 4, ((List.finRange 4).foldl step p).2.gauges[j] = record p.1 j p.2.gauges[j] := by
  obtain ⟨reads, fan, timer, records⟩ := h.foldl (List.finRange 4) (List.nodup_finRange 4) p
  exact ⟨reads, fan, timer, fun j => (records j).trans (if_pos (List.mem_finRange j))⟩

end Pass

/-! ## A reading handed over -/

/-- The target a gauge takes from a reading of `origin`: its curve's deflection where its entry names the origin and both read good, and
otherwise the target it had (R144, R12). -/
def targetAfter (origin : GaugeSource) (reading : Nat) (t : TableStore) (g : Fin 4) (before : Nat) : Nat :=
  ((t.gauge g).2.bind fun e => if e.source = origin then (t.curve e.curve).2.map (·.eval reading) else none).getD before

/-- A gauge's record after a reading of `origin`: the target alone is new (R144). -/
def retargeted (origin : GaugeSource) (reading : Nat) (t : TableStore) (g : Fin 4) (r : GaugeRecord) : GaugeRecord :=
  { r with target := targetAfter origin reading t g r.target }

/-- Block reads leave what a gauge takes as it was. -/
theorem retargeted_congr {t u : TableStore} (h : t.Reads u) (origin : GaugeSource) (reading : Nat) :
    retargeted origin reading u = retargeted origin reading t := by
  funext g r
  simp only [retargeted, targetAfter, h.gauge, h.curve]

/-- A recomputation gives its gauge the target (R144). -/
theorem recompute_rewrites (origin : GaugeSource) (reading : Nat) : Rewrites (retargeted origin reading) (recompute origin reading) where
  stable h := retargeted_congr h origin reading
  reads p g := (recompute_touches origin reading p g).1
  drive p g := by
    have stands (h : ∀ before, targetAfter origin reading p.1 g before = before) :
        p.2 = { p.2 with gauges := upd p.2.gauges g (retargeted origin reading p.1 g) } := by
      rw [EventChannels.upd_of_fixed]
      simp only [retargeted, h]
    unfold recompute
    simp only
    split
    · next failing => exact stands fun _ => by simp only [targetAfter, failing, Option.bind_none, Option.getD_none]
    · next e good =>
      have curve : ((p.1.gauge g).1.curve e.curve).2 = (p.1.curve e.curve).2 := (p.1.gauge_reads g).curve e.curve
      split
      · next named =>
        simp only [curve]
        split
        · next k points =>
          have taken : retargeted origin reading p.1 g = fun r => { r with target := k.eval reading } := by
            funext r
            simp only [retargeted, targetAfter, good, Option.bind_some, named, if_true, points, Option.map_some, Option.getD_some]
          rw [taken]
        · next failing =>
          exact stands fun _ => by simp only [targetAfter, good, Option.bind_some, named, if_true, failing, Option.map_none, Option.getD_none]
      · next other => exact stands fun _ => by simp only [targetAfter, good, Option.bind_some, other, if_false, Option.getD_none]

/-- A reading handed over rewrites each gauge's target, and nothing else of the gauge drive (R144). -/
theorem handReading_pass (s : State) (origin : GaugeSource) (reading : Nat) :
    ∃ t d, handReading s origin reading = { s with tables := t, gauges := d } ∧ s.tables.Reads t ∧ d.fan = s.gauges.fan ∧
      d.updateTimer = s.gauges.updateTimer ∧ ∀ g : Fin 4, d.gauges[g] = retargeted origin reading s.tables g s.gauges.gauges[g] :=
  ⟨_, _, rfl, (recompute_rewrites origin reading).all (s.tables, s.gauges)⟩

/-- The tach value a gate's end gives, its cylinders as read (R140). -/
def tachValue (s : State) : Nat := min 1023 (s.sampler.gateCount * 30 / s.tables.peekParam .cylinders)

/-- The state in which a gate's tach value is handed over: the cylinders read, the count 0 again, the gate timer started anew (R140). -/
def gateEnded (dt : Time) (s : State) : State :=
  { s with
    now := s.now + dt, tables := (s.tables.param .cylinders).1
    sampler := { s.sampler with tach := some (tachValue s), gateCount := 0, gateTimer := s.sampler.gateTimer + 500000 } }

/-- A gate that ends hands its tach value to the gauges (R140). -/
theorem execGateExpiry_ended {dt : Time} {s : State} (running : s.power = .running) (come : s.sampler.gateTimer ≤ s.now + dt) :
    execGateExpiry dt s = .next (handReading (gateEnded dt s) .tach (tachValue s)) := by
  have expired : (s.elapse dt).sampler.gateTimer ≤ (s.elapse dt).now := come
  have value : tachOf (s.elapse dt).sampler.gateCount ((s.elapse dt).tables.param .cylinders).2 = tachValue s := by
    rw [TableStore.param_value]
    rfl
  simp only [execGateExpiry, live_running running, expired, if_true, value]
  rfl

/-- Settles O45: the tach value goes to the gauges of source TACH, whose entries the read of the cylinders leaves as they were. -/
theorem gateGivesTachValue : Obligations.GateGivesTachValue := by
  intro dt s running come v
  have read : s.tables.Reads (gateEnded dt s).tables := s.tables.param_reads .cylinders
  obtain ⟨t, d, handed, reads, fan, timer, records⟩ := handReading_pass (gateEnded dt s) .tach v
  refine ⟨{ gateEnded dt s with tables := t, gauges := d }, ?_, (read.trans reads).1, rfl, fan, timer, fun g => ?_⟩
  · exact (execGateExpiry_ended running come).trans (congrArg _ handed)
  · have record := records g
    rw [retargeted_congr read] at record
    exact record

end Sys2Proof.Machine.GaugePasses
end

section
/-! PROOFS. GAUGE_UPDATE (R138, R143, R147, R148, R152 to R154): the arithmetic of slew and duty, the record of each gauge driven, the fan's
ramp step, and the zeroing while IGNITION is clear. -/

namespace Sys2Proof.Machine.GaugeUpdates

open GaugePasses

/-! ## Slew and duty -/

/-- Within one step of its target a value reaches it, and further away it moves by the step (R147, R154). -/
theorem approach_cases (v target step : Nat) :
    (v ≤ target → target - v ≤ step → approach v target step = target) ∧ (target < v → v - target ≤ step → approach v target step = target) ∧
      (v + step < target → approach v target step = v + step) ∧ (target + step < v → approach v target step = v - step) := by
  refine ⟨fun up near => ?_, fun down near => ?_, fun far => ?_, fun far => ?_⟩
  · rw [approach, if_pos up, if_pos near]
  · rw [approach, if_neg (by omega), if_pos near]
  · rw [approach, if_pos (by omega), if_neg (by omega)]
  · rw [approach, if_neg (by omega), if_neg (by omega)]

/-- A duty is its rounded quotient, at most 1024, and UNDERSUPPLIED tells of more (R148, R154). -/
theorem dutyOf_eq (num den : Nat) :
    dutyOf num den = (min 1024 ((2 * num + den) / (2 * den)), decide (1024 < (2 * num + den) / (2 * den))) := by
  unfold dutyOf roundedQuotient
  split
  · next more => rw [Nat.min_eq_left (Nat.le_of_lt more), decide_eq_true more]
  · next within => rw [Nat.min_eq_right (Nat.le_of_not_lt within), decide_eq_false within]

/-! ## The fan's entry -/

/-- A block read that gives words gives the data of the words of its range (R10). -/
theorem wordAt_readBlock {t : TableStore} {a n k : Nat} {ws : List Word16} (h : (t.readBlock a n).2 = some ws) (inside : k < n) :
    wordAt ws k = (t.word (a + k)).data := by
  by_cases good : t.failing a n = []
  · rw [TableStore.readBlock_good good] at h
    obtain rfl : (List.range' a n).map (fun b => (t.word b).data) = ws := Option.some.inj h
    have read : ((List.range' a n).map fun b => (t.word b).data)[k]? = some (t.word (a + k)).data := by
      rw [List.getElem?_map, List.getElem?_range' inside, Option.map_some, Nat.one_mul]
    rw [wordAt, List.getD_eq_getElem?_getD, read, Option.getD_some]
  · rw [TableStore.readBlock_bad good] at h
    cases h

/-- Level `n` has the word `n + 4` of the fan's read for its fraction (R153). -/
theorem fraction_fanOf (ws : List Word16) (n : Nat) (low : 1 ≤ n) (high : n ≤ 7) :
    (fanOf ws).fraction n = min 1000 (wordAt ws (n + 4)).toNat := by
  match n, low, high with
  | 1, _, _ | 2, _, _ | 3, _, _ | 4, _, _ | 5, _, _ | 6, _, _ | 7, _, _ => rfl
  | n + 8, _, high => exact absurd high (by omega)

/-- The fan's entry as its words hold it: on or off, and the fraction of each level, at most 1000 (R153). -/
theorem fan_entry {t : TableStore} {e : FanEntry} (h : t.fan.2 = some e) :
    e.on = (t.word (address .gauge 16)).data.getLsbD 0 ∧ e.fraction 0 = 0 ∧
      ∀ n, 1 ≤ n → n ≤ 7 → e.fraction n = min 1000 (t.word (address .gauge (20 + n))).data.toNat := by
  obtain ⟨ws, read, rfl⟩ := Option.map_eq_some_iff.mp h
  refine ⟨congrArg (·.getLsbD 0) (wordAt_readBlock read (by omega)), rfl, fun n low high => ?_⟩
  have word : wordAt ws (n + 4) = (t.word (address .gauge (20 + n))).data := by
    rw [wordAt_readBlock read (by omega)]
    simp only [address]
    congr 2
    omega
  rw [fraction_fanOf ws n low high, word]

/-! ## The supply value -/

/-- The supply value a gauge update works with (R138). -/
def supplyRead (m : Sampler) (t : TableStore) : Nat :=
  match m.average0 with
  | some a => 2 * a
  | none => t.peekParam .gaugeReference

theorem supplyValue_snd (m : Sampler) (t : TableStore) : (supplyValue t m.average0).2 = supplyRead m t := by
  unfold supplyValue supplyRead
  cases m.average0 with
  | some a => rfl
  | none => exact t.param_value _

theorem supplyRead_congr {t u : TableStore} (h : t.Reads u) (m : Sampler) : supplyRead m u = supplyRead m t := by
  unfold supplyRead
  rw [h.peekParam]

/-! ## One gauge driven -/

/-- A gauge's record after a timer update with IGNITION set (R147, R148): a failing entry leaves it, an OFF gauge is at rest, a low supply
freezes it, and otherwise it slews toward its target. -/
def driven (m : Sampler) (t : TableStore) (g : Fin 4) (r : GaugeRecord) : GaugeRecord :=
  match (t.gauge g).2 with
  | none => r
  | some e =>
    if e.kind = .off then ⟨r.target, 0, 0, false, false, false⟩
    else if supplyRead m t < 600 then { r with stale := m.staleOf e.source, held := true }
    else
      let h := approach r.deflection r.target e.slew
      let d := gaugeDuty e.kind h (supplyRead m t) (t.peekParam .gaugeReference)
      ⟨r.target, h, d.1, d.2, m.staleOf e.source, false⟩

/-- An entry is rewritten by what is made of its own record. -/
theorem upd_eq_const {α : Type} {n : Nat} (v : Vector α n) (i : Fin n) (f : α → α) : upd v i f = upd v i fun _ => f v[i] := rfl

/-- A timer update of one gauge drives its record (R147, R148). -/
theorem updateGauge_rewrites (m : Sampler) : Rewrites (driven m) (updateGauge m) where
  reads p g := updateGauge_reads m p g
  stable h := by
    funext g r
    simp only [driven, h.gauge, h.peekParam, supplyRead_congr h]
  drive p g := by
    have entry := p.1.gauge_reads g
    rw [upd_eq_const]
    unfold updateGauge
    simp only [supplyValue_snd, supplyRead_congr entry, TableStore.param_value, (entry.trans (supplyValue_reads _ _)).peekParam]
    cases read : (p.1.gauge g).2 with
    | none =>
      have stands : driven m p.1 g p.2.gauges[g] = p.2.gauges[g] := by simp only [driven, read]
      simp only [stands, EventChannels.upd_of_fixed]
    | some e =>
      by_cases off : e.kind = .off
      · simp only [driven, read, off, if_true]
      · by_cases low : supplyRead m p.1 < 600
        · simp only [driven, read, off, low, if_true, if_false]
        · simp only [driven, read, off, low, if_false]

/-! ## The fan's ramp step -/

/-- The fan's record after a ramp step with IGNITION set (R152 to R154): a failing entry leaves it, an entry that is off puts it to rest, a
low supply freezes it, and otherwise it ramps toward the fraction of its effective level. -/
def ramped (m : Sampler) (shed : Bool) (request : Nat) (t : TableStore) (r : FanRecord) : FanRecord :=
  match t.fan.2 with
  | none => r
  | some e =>
    if e.on = false then ⟨0, 0, false, false⟩
    else if supplyRead m t < 600 then { r with held := true }
    else
      let level := if shed then min request (t.peekParam .shedCap) else request
      let f := approach r.fraction (e.fraction level) (t.peekParam .fanRampStep)
      let d := fanDuty f (supplyRead m t) (t.peekParam .fanReference)
      ⟨f, d.1, d.2, false⟩

theorem ramped_congr {t u : TableStore} (h : t.Reads u) (m : Sampler) (shed : Bool) (request : Nat) :
    ramped m shed request u = ramped m shed request t := by
  funext r
  simp only [ramped, h.fan, h.peekParam, supplyRead_congr h]

/-- A ramp step rewrites the fan's record alone (R154). -/
theorem rampFan_drive (m : Sampler) (shed : Bool) (request : Nat) (p : TableStore × GaugeDrive) :
    (rampFan m shed request p).2 = { p.2 with fan := ramped m shed request p.1 p.2.fan } := by
  have entry := p.1.fan_reads
  have supply := entry.trans (supplyValue_reads p.1.fan.1 m.average0)
  have cap := supply.trans (TableStore.param_reads _ .shedCap)
  have step := cap.trans (TableStore.param_reads _ .fanRampStep)
  unfold rampFan
  simp only [supplyValue_snd, supplyRead_congr entry, TableStore.param_value, supply.peekParam, cap.peekParam, step.peekParam]
  cases read : p.1.fan.2 with
  | none => simp only [ramped, read]
  | some e =>
    cases on : e.on with
    | false => simp only [ramped, read, on, Bool.false_eq_true, if_false, if_true]
    | true =>
      by_cases low : supplyRead m p.1 < 600
      · simp only [ramped, read, on, low, if_true, Bool.true_eq_false, if_false]
      · simp only [ramped, read, on, low, if_true, Bool.true_eq_false, if_false, fanEffective]

/-! ## The command -/

/-- The state in which an update is made: the update timer goes on (R143). -/
def updateDue (dt : Time) (s : State) : State :=
  { s with now := s.now + dt, gauges := { s.gauges with updateTimer := s.gauges.updateTimer + 100000 } }

/-- An update timer that expires makes its update (R143). -/
theorem execGaugeUpdate_due {dt : Time} {s : State} (running : s.power = .running) (come : s.gauges.updateTimer ≤ s.now + dt) :
    execGaugeUpdate dt s = .next (updateGauges (updateDue dt s)) := by
  have expired : (s.elapse dt).gauges.updateTimer ≤ (s.elapse dt).now := come
  simp only [execGaugeUpdate, live_running running, expired, if_true]
  rfl

/-- While IGNITION is clear an update zeroes the drive (R143). -/
theorem updateGauges_clear {s : State} (clear : s.ignition = false) : updateGauges s = { s with gauges := s.gauges.zeroed } := by
  simp only [updateGauges, clear, Bool.false_eq_true, if_false]

/-- While IGNITION is set an update drives each gauge, and then the fan takes a ramp step (R143). -/
theorem updateGauges_set {s : State} (set : s.ignition = true) :
    ∃ t d, updateGauges s = { s with tables := t, gauges := d } ∧ s.tables.Reads t ∧ d.updateTimer = s.gauges.updateTimer ∧
      (∀ g : Fin 4, d.gauges[g] = driven s.sampler s.tables g s.gauges.gauges[g]) ∧
        d.fan = ramped s.sampler s.shed s.engine.fanRequest.val s.tables s.gauges.fan := by
  obtain ⟨reads, fan, timer, records⟩ := (updateGauge_rewrites s.sampler).all (s.tables, s.gauges)
  generalize passed : (List.finRange 4).foldl (updateGauge s.sampler) (s.tables, s.gauges) = p at reads fan timer records
  have ramp := rampFan_drive s.sampler s.shed s.engine.fanRequest.val p
  refine ⟨(rampFan s.sampler s.shed s.engine.fanRequest.val p).1, (rampFan s.sampler s.shed s.engine.fanRequest.val p).2, ?_,
    reads.trans (rampFan_reads _ _ _ p), ?_, fun g => ?_, ?_⟩
  · simp only [updateGauges, set, if_true, passed]
  · rw [ramp]
    exact timer
  · rw [ramp]
    exact records g
  · rw [ramp, ramped_congr reads, fan]

/-- Settles O47: an update zeroes the drive or drives it, by the slew, the duties and the fan's fractions. -/
theorem gaugeUpdateDrivesGauges : Obligations.GaugeUpdateDrivesGauges := by
  refine ⟨fun dt s running come => ?_, approach_cases, fun h vs vref => ⟨dutyOf_eq _ _, dutyOf_eq _ _, dutyOf_eq _ _⟩, fun t e => fan_entry⟩
  intro vs stale
  have updated := execGaugeUpdate_due running come
  cases ignition : s.ignition with
  | false =>
    have clear : (updateDue dt s).ignition = false := ignition
    refine ⟨_, updated.trans (congrArg _ (updateGauges_clear clear)), (TableStore.Reads.refl _).1, rfl, rfl, fun _ => ⟨rfl, rfl, fun g => ?_⟩, nofun⟩
    exact ActionChains.zeroed_gauge _ g
  | true =>
    have set : (updateDue dt s).ignition = true := ignition
    obtain ⟨t, d, driving, reads, timer, records, fan⟩ := updateGauges_set set
    exact ⟨_, updated.trans (congrArg _ driving), reads.1, rfl, timer, nofun, fun _ => ⟨records, fan⟩⟩

end Sys2Proof.Machine.GaugeUpdates
end

section
/-! PROOFS. Curves (R145, R146): the segments taken in order up to the one that holds a reading or ends the curve, and the range of a
deflection. -/

namespace Sys2Proof.Machine.Curves

/-! ## The points of a curve -/

/-- Every point of a curve deflects to at most 1000, and past its points nothing is deflected. -/
theorem point_le {l : List (Nat × Nat)} (small : ∀ q ∈ l, q.2 ≤ 1000) (i : Nat) : (l.getD i (0, 0)).2 ≤ 1000 := by
  rw [List.getD_eq_getElem?_getD]
  cases read : l[i]? with
  | none => exact Nat.zero_le _
  | some q => exact small q (List.mem_of_getElem? read)

/-- The last point of a curve, counted from its first. -/
theorem getLastD_eq_getD (q : Nat × Nat) (rest : List (Nat × Nat)) : rest.getLastD q = (q :: rest).getD rest.length (0, 0) := by
  induction rest generalizing q with
  | nil => rfl
  | cons r rest ih => exact (List.getLastD_cons ..).trans (ih r)

/-! ## The segments -/

/-- A segment that rises and ends at or below the reading is passed over (R146). -/
theorem segments_passes {x : Nat} {q r : Nat × Nat} {rest : List (Nat × Nat)} (rises : q.1 < r.1) (ends : r.1 ≤ x) :
    segments x q.1 q.2 (r :: rest) = segments x r.1 r.2 rest := by
  rw [segments, if_neg (Nat.not_le.mpr rises), if_neg (Nat.not_lt.mpr ends)]

/-- A segment that does not rise ends the curve at its own start (R146). -/
theorem segments_stops {x : Nat} {q r : Nat × Nat} {rest : List (Nat × Nat)} (level : r.1 ≤ q.1) : segments x q.1 q.2 (r :: rest) = q.2 := by
  rw [segments, if_pos level]

/-- A segment that rises beyond the reading is interpolated (R146). -/
theorem segments_interpolates {x : Nat} {q r : Nat × Nat} {rest : List (Nat × Nat)} (rises : q.1 < r.1) (within : x < r.1) :
    segments x q.1 q.2 (r :: rest) = (q.2 : Int) + (((x : Int) - q.1) * ((r.2 : Int) - q.2)).tdiv ((r.1 : Int) - q.1) := by
  rw [segments, if_neg (Nat.not_le.mpr rises), if_pos within]

/-- Where the segments before point `i` all rise and end at or below the reading, the segments go on from point `i`. -/
theorem segments_from {x : Nat} (q : Nat × Nat) (rest : List (Nat × Nat)) (i : Nat) (inside : i ≤ rest.length)
    (passed : ∀ j < i, ((q :: rest).getD j (0, 0)).1 < ((q :: rest).getD (j + 1) (0, 0)).1 ∧ ((q :: rest).getD (j + 1) (0, 0)).1 ≤ x) :
    segments x q.1 q.2 rest = segments x ((q :: rest).getD i (0, 0)).1 ((q :: rest).getD i (0, 0)).2 (rest.drop i) := by
  induction i generalizing q rest with
  | zero => rfl
  | succ i ih =>
    cases rest with
    | nil => exact absurd inside (Nat.not_succ_le_zero i)
    | cons r rest =>
      obtain ⟨rises, ends⟩ := passed 0 (Nat.succ_pos i)
      exact (segments_passes rises ends).trans
        (ih r rest (Nat.le_of_succ_le_succ inside) fun j before => passed (j + 1) (Nat.succ_lt_succ before))

/-! ## The deflection -/

/-- The deflection a curve gives, at each step of R146. -/
theorem eval_cons (q : Nat × Nat) (rest : List (Nat × Nat)) (x : Nat) :
    (⟨q :: rest⟩ : Curve).eval x =
      if x ≤ q.1 then q.2 else if (rest.getLastD q).1 ≤ x then (rest.getLastD q).2 else clampTo 0 1000 (segments x q.1 q.2 rest).toNat := rfl

/-- A reading above the first point and not below the last is given the last point's deflection (R146). -/
theorem eval_beyond {q : Nat × Nat} {rest : List (Nat × Nat)} {x : Nat} (above : q.1 < x) (beyond : (rest.getLastD q).1 ≤ x) :
    (⟨q :: rest⟩ : Curve).eval x = (rest.getLastD q).2 := by
  rw [eval_cons, if_neg (Nat.not_le.mpr above), if_pos beyond]

/-- A reading between the first point and the last is given its segment's deflection (R146). -/
theorem eval_between {q : Nat × Nat} {rest : List (Nat × Nat)} {x : Nat} (above : q.1 < x) (before : x < (rest.getLastD q).1) :
    (⟨q :: rest⟩ : Curve).eval x = clampTo 0 1000 (segments x q.1 q.2 rest).toNat := by
  rw [eval_cons, if_neg (Nat.not_le.mpr above), if_neg (Nat.not_le.mpr before)]

/-- A deflection is 0 to 1000 where those of the points are. -/
theorem eval_le {c : Curve} (small : ∀ q ∈ c.points, q.2 ≤ 1000) (x : Nat) : c.eval x ≤ 1000 := by
  obtain ⟨points⟩ := c
  cases points with
  | nil => exact Nat.zero_le _
  | cons q rest =>
    rw [eval_cons]
    split
    · exact small q List.mem_cons_self
    · split
      · rw [getLastD_eq_getD]
        exact point_le small _
      · simp only [clampTo]
        omega

/-- A deflection taken as 0 to 1000. -/
theorem clampTo_toNat (z : Int) : ((clampTo 0 1000 z.toNat : Nat) : Int) = min 1000 (max 0 z) := by
  simp only [clampTo]
  omega

/-- Settles O48: below the first point and above the last the curve is level, and between them the first segment that does not rise, or that
holds the reading, gives the deflection. -/
theorem curveIsInterpolated : Obligations.CurveIsInterpolated := by
  rintro ⟨points⟩ x two small - px py last
  obtain ⟨q, rest, rfl⟩ := List.exists_cons_of_length_pos (Nat.zero_lt_of_lt two)
  have low : ∀ p ∈ q :: rest, p.2 ≤ 1000 := fun p point => (small p point).2
  have final : rest.getLastD q = (px last, py last) := getLastD_eq_getD q rest
  refine ⟨fun below => if_pos below, ?_, ?_, eval_le low x⟩
  · intro above beyond
    exact (eval_beyond above (final ▸ beyond)).trans (congrArg Prod.snd final)
  · intro above before i segment passed
    have inside : i < rest.length := segment
    have next : rest.drop i = (px (i + 1), py (i + 1)) :: rest.drop (i + 1) := by
      have read : rest.getD i (0, 0) = rest[i] := by
        rw [List.getD_eq_getElem?_getD, List.getElem?_eq_getElem inside, Option.getD_some]
      exact (List.drop_eq_getElem_cons inside).trans (congrArg (· :: rest.drop (i + 1)) read.symm)
    have reached := segments_from q rest i (Nat.le_of_lt inside) passed
    rw [next] at reached
    rw [eval_between (q := q) (rest := rest) above (final ▸ before), reached]
    refine ⟨fun level => ?_, fun rises within => ?_⟩
    · rw [segments_stops (q := (px i, py i)) level, Int.toNat_natCast]
      exact (Nat.max_eq_right (Nat.zero_le _)).trans (Nat.min_eq_right (point_le low i))
    · rw [segments_interpolates (q := (px i, py i)) rises within, clampTo_toNat]

end Sys2Proof.Machine.Curves
end

section
/-! PROOFS. The ranges of the gauge drive (R142, R143, R151): a reading handed over, an update and a ramp step each leave the records they
rewrite within range, and a zeroing leaves them at rest. -/

namespace Sys2Proof.Machine.GaugeRanges

open GaugePasses GaugeUpdates

/-! ## The quantities -/

/-- A value that moves toward its target passes neither (R147, R154). -/
theorem approach_le {v target bound : Nat} (value : v ≤ bound) (aim : target ≤ bound) (step : Nat) : approach v target step ≤ bound := by
  unfold approach
  split <;> split <;> omega

/-- A duty is at most 1024 (R148, R154). -/
theorem dutyOf_le (num den : Nat) : (dutyOf num den).1 ≤ 1024 := by
  rw [dutyOf_eq]
  exact Nat.min_le_left _ _

theorem gaugeDuty_le (kind : GaugeKind) (h vs vref : Nat) : (gaugeDuty kind h vs vref).1 ≤ 1024 := by
  cases kind with
  | off => exact Nat.zero_le _
  | thermal => exact dutyOf_le _ _
  | coil => exact dutyOf_le _ _

/-- The fraction of each level is at most 1000 (R153). -/
theorem fraction_le {t : TableStore} {e : FanEntry} (good : t.fan.2 = some e) {level : Nat} (within : level ≤ 7) : e.fraction level ≤ 1000 := by
  obtain ⟨_, off, levels⟩ := fan_entry good
  rcases Nat.eq_zero_or_pos level with rfl | positive
  · rw [off]
    exact Nat.zero_le _
  · rw [levels level positive within]
    exact Nat.min_le_left _ _

/-- The points of a curve read deflect to at most 1000 (R145). -/
theorem curve_points_le {t : TableStore} {c : Fin 8} {k : Curve} (good : (t.curve c).2 = some k) : ∀ q ∈ k.points, q.2 ≤ 1000 := by
  obtain ⟨ws, _, rfl⟩ := Option.map_eq_some_iff.mp good
  intro q point
  obtain ⟨p, _, rfl⟩ := List.mem_map.mp point
  exact Nat.min_le_left _ _

/-- A target taken from a reading is a curve's deflection, or the target there was (R144). -/
theorem targetAfter_le (origin : GaugeSource) (reading : Nat) (t : TableStore) (g : Fin 4) {before : Nat} (bounded : before ≤ 1000) :
    targetAfter origin reading t g before ≤ 1000 := by
  unfold targetAfter
  cases (t.gauge g).2 with
  | none => exact bounded
  | some e =>
    simp only [Option.bind_some]
    split
    · cases points : (t.curve e.curve).2 with
      | none => exact bounded
      | some k => exact Curves.eval_le (curve_points_le points) reading
    · exact bounded

/-! ## The records -/

/-- A gauge's record within range (R142). -/
def Within (r : GaugeRecord) : Prop := r.target ≤ 1000 ∧ r.deflection ≤ 1000 ∧ r.duty ≤ 1024

/-- The fan's record within range (R151). -/
def FanWithin (r : FanRecord) : Prop := r.fraction ≤ 1000 ∧ r.duty ≤ 1024

theorem retargeted_within (origin : GaugeSource) (reading : Nat) (t : TableStore) (g : Fin 4) {r : GaugeRecord} (w : Within r) :
    Within (retargeted origin reading t g r) := by
  obtain ⟨target, rest⟩ := w
  exact ⟨targetAfter_le origin reading t g target, rest⟩

/-- An update drives a gauge within range (R147, R148). -/
theorem driven_within (m : Sampler) (t : TableStore) (g : Fin 4) {r : GaugeRecord} (w : Within r) : Within (driven m t g r) := by
  have ⟨target, deflection, _⟩ := w
  unfold driven
  split
  · exact w
  · next e _ =>
    split
    · exact ⟨target, Nat.zero_le _, Nat.zero_le _⟩
    · split
      · exact w
      · exact ⟨target, approach_le deflection target e.slew, gaugeDuty_le _ _ _ _⟩

/-- A ramp step drives the fan within range (R153, R154). -/
theorem ramped_within (m : Sampler) (shed : Bool) {request : Nat} (asked : request ≤ 7) (t : TableStore) {r : FanRecord} (w : FanWithin r) :
    FanWithin (ramped m shed request t r) := by
  have ⟨fraction, _⟩ := w
  unfold ramped
  split
  · exact w
  · next e good =>
    split
    · exact ⟨Nat.zero_le _, Nat.zero_le _⟩
    · split
      · exact w
      · have level : (if shed then min request (t.peekParam .shedCap) else request) ≤ 7 := by
          split
          · exact Nat.le_trans (Nat.min_le_left _ _) asked
          · exact asked
        exact ⟨approach_le fraction (fraction_le good level) _, dutyOf_le _ _⟩

/-! ## The drive zeroed, and after a reset -/

theorem zeroed_bounded {d : GaugeDrive} (w : d.Bounded) : d.zeroed.Bounded := by
  obtain ⟨gauges, _⟩ := w
  refine ⟨fun g => ?_, Nat.zero_le _, Nat.zero_le _⟩
  obtain ⟨target, _⟩ := gauges g
  rw [ActionChains.zeroed_gauge]
  exact ⟨target, Nat.zero_le _, Nat.zero_le _⟩

theorem zeroed_atRest (d : GaugeDrive) : d.zeroed.AtRest := by
  refine ⟨fun g => ?_, rfl, rfl⟩
  rw [ActionChains.zeroed_gauge]
  exact ⟨rfl, rfl⟩

theorem afterReset_gauge (now : Time) (g : Fin 4) : (GaugeDrive.afterReset now).gauges[g] = GaugeRecord.afterReset :=
  Vector.getElem_replicate ..

theorem afterReset_bounded (now : Time) : (GaugeDrive.afterReset now).Bounded := by
  refine ⟨fun g => ?_, Nat.zero_le _, Nat.zero_le _⟩
  rw [afterReset_gauge]
  exact ⟨Nat.zero_le _, Nat.zero_le _, Nat.zero_le _⟩

theorem afterReset_atRest (now : Time) : (GaugeDrive.afterReset now).AtRest := by
  refine ⟨fun g => ?_, rfl, rfl⟩
  rw [afterReset_gauge]
  exact ⟨rfl, rfl⟩

end Sys2Proof.Machine.GaugeRanges
end

section
/-! PROOFS. The gauge drive in order (R142, R143, R151): how every command keeps it within its ranges, and at rest while IGNITION is clear.
Readings, updates, resets and the walks of the action engine reach it; every other command leaves the drive and IGNITION as they were. -/

namespace Sys2Proof.Machine.GaugeSteps

open ActionChains GaugePasses GaugeUpdates GaugeRanges

/-! ## The order, and what it speaks of -/

/-- The gauge drive within its ranges, and at rest while IGNITION is clear (R142, R143, R151). -/
structure InOrder (s : State) : Prop where
  bounded : s.gauges.Bounded
  parked : s.ignition = false → s.gauges.AtRest

/-- From the first state to the second the gauge drive stays in order. -/
def Kept (s u : State) : Prop := InOrder s → InOrder u

theorem Kept.refl (s : State) : Kept s s := id

theorem Kept.trans {s u v : State} (h : Kept s u) (k : Kept u v) : Kept s v := k ∘ h

theorem Kept.ite {c : Prop} [Decidable c] {s u v : State} (hu : Kept s u) (hv : Kept s v) : Kept s (if c then u else v) := by
  split
  · exact hu
  · exact hv

/-- What the order speaks of: the gauge drive, and IGNITION. -/
def drive (s : State) : GaugeDrive × Bool := (s.gauges, s.ignition)

/-- The order is one of the drive and IGNITION alone. -/
theorem Kept.of_drive {s u : State} (h : drive u = drive s) : Kept s u := by
  obtain ⟨gauges, ignition⟩ : u.gauges = s.gauges ∧ u.ignition = s.ignition := by simpa only [drive, Prod.mk.injEq] using h
  exact fun w => ⟨by rw [gauges]; exact w.bounded, by rw [gauges, ignition]; exact w.parked⟩

/-- A step taken after a change that leaves the drive and IGNITION. -/
theorem Kept.after {s u v : State} (k : Kept u v) (same : drive u = drive s) : Kept s v := (Kept.of_drive same).trans k

/-! ## The operations that leave the drive and IGNITION -/

/-- The gauge drive and the action engine hold all of it. -/
theorem drive_of_blocks {s u : State} (gauges : u.gauges = s.gauges) (engine : u.engine = s.engine) : drive u = drive s := by
  simp only [drive, State.ignition, State.mode, gauges, engine]

@[simp] theorem drive_ite (c : Prop) [Decidable c] (u v : State) : drive (if c then u else v) = if c then drive u else drive v :=
  apply_ite drive c u v

@[simp] theorem drive_setPort (s : State) (p : PortId) (q : Port) : drive (s.setPort p q) = drive s := by cases p <;> rfl

@[simp] theorem drive_withTables (s : State) (t : TableStore) : drive (s.withTables t) = drive s := rfl

@[simp] theorem drive_updSource (s : State) (a : Fin 64) (f : SourceRecord → SourceRecord) : drive (s.updSource a f) = drive s := rfl

@[simp] theorem drive_updChannel (s : State) (c : Fin 32) (f : Channel → Channel) : drive (s.updChannel c f) = drive s := rfl

@[simp] theorem drive_updLoad (s : State) (l : Fin 32) (f : LoadRecord → LoadRecord) : drive (s.updLoad l f) = drive s := rfl

@[simp] theorem drive_updDescriptor (s : State) (d : Fin 16) (f : DescriptorRecord → DescriptorRecord) : drive (s.updDescriptor d f) = drive s := rfl

@[simp] theorem drive_callChoice (s : State) : drive s.callChoice = drive s := rfl

@[simp] theorem drive_countReportError (s : State) : drive s.countReportError = drive s := rfl

theorem drive_of_events {s u : State} (h : TouchesEvents s u) : drive u = drive s := by
  obtain ⟨t, e, rfl, _⟩ := h
  rfl

theorem drive_of_lamps {s u : State} (h : TouchesLamps s u) : drive u = drive s := by
  obtain ⟨t, a, b, l, rfl, _⟩ := h
  rfl

@[simp] theorem drive_reportTo (s : State) (c : Option (Fin 32)) (closed : Bool) : drive (reportTo s c closed) = drive s :=
  drive_of_events (reportTo_touches s c closed)

@[simp] theorem drive_resolveLoads (s : State) (fade : Bool) (ls : List (Fin 32)) : drive (resolveLoads s fade ls) = drive s :=
  drive_of_lamps (resolveLoads_touches s fade ls)

@[simp] theorem drive_resolveAll (s : State) : drive (resolveAll s) = drive s := drive_of_lamps (resolveAll_touches s)

/-! ## The line -/

@[simp] theorem drive_judgeFrame (s : State) (p : PortId) (r : Reception) : drive (judgeFrame s p r) = drive s := by
  simp [judgeFrame, acceptFrame]

@[simp] theorem drive_setRefillOwed (s : State) (p : PortId) (b : Bool) : drive (s.setRefillOwed p b) = drive s := drive_setPort s p _

@[simp] theorem drive_settleRefill (s : State) (p : PortId) : drive (settleRefill s p) = drive s :=
  (drive_of_lamps (settleRefill_touches s p).1).trans (drive_setRefillOwed s p false)

@[simp] theorem drive_owedRefill (s : State) (p : PortId) : drive (owedRefill s p) = drive s := by simp [owedRefill]

@[simp] theorem drive_markDirty (s : State) (pod : Option (Fin 12)) : drive (markDirty s pod) = drive s :=
  drive_of_lamps (markDirty_touches s pod).1

/-! ## The services -/

@[simp] theorem drive_releasePool (s : State) (p : PortId) : drive (s.releasePool p) = drive s := drive_setPort s p _

@[simp] theorem drive_answer (s : State) (p : PortId) (f : Frame) (status : Status) (data : List Byte) : drive (answer s p f status data) = drive s :=
  drive_setPort s p _

/-- A request performed and released leaves the drive and IGNITION where its performing does (R159). -/
theorem drive_request {s : State} {p : PortId} {f : Frame} {g : State → State} (h : drive (g s) = drive s) :
    drive ((unlessBusy s p f g).releasePool p) = drive s := by
  simp [unlessBusy, h]

theorem drive_readTable (s : State) (p : PortId) (f : Frame) (area : Byte) (index count : Nat) :
    drive (readTable s p f area index count) = drive s := by
  unfold readTable
  split <;> simp

@[simp] theorem drive_answerPortGroup (s : State) (p : PortId) (f : Frame) (g : PortId) (clear : Bool) :
    drive (answerPortGroup s p f g clear) = drive s := by
  simp [answerPortGroup, clearPortCounters]

theorem drive_readCounters (s : State) (p : PortId) (f : Frame) (group clear : Nat) : drive (readCounters s p f group clear) = drive s := by
  have cleared : drive (clearDeviceCounters s) = drive s := rfl
  unfold readCounters
  split
  · exact drive_answer s p f _ _
  · split <;> simp [cleared]

theorem drive_beginStore (s : State) (p : PortId) (f : Frame) : drive (beginStore s p f) = drive s := by
  unfold beginStore
  split
  · simp
  · rfl

/-- A write of EVENT words drops pending edges and calls for a choice (R68, R72). -/
@[simp] theorem drive_eventsWritten (s : State) (cs : List (Fin 32)) : drive (eventsWritten s cs) = drive s :=
  foldl_rel (R := fun a b : State => drive b = drive a) (fun _ => rfl) (fun h k => k.trans h) (fun a c => by simp [dropDisabled]) cs s

@[simp] theorem drive_writeTable (s : State) (a : Area) (index : Nat) (ws : List Word16) : drive (writeTable s a index ws) = drive s := by
  unfold writeTable
  simp only
  split <;> simp

@[simp] theorem drive_loadLimp (s : State) (v : LimpVariant) : drive (loadLimp s v) = drive s := by
  rw [loadLimp, drive_resolveAll, drive_eventsWritten, drive_withTables]

@[simp] theorem drive_clearLatches (s : State) (ls : List (Fin 32)) : drive (clearLatches s ls) = drive s := drive_resolveLoads _ _ _

/-! ## Readings and updates -/

/-- A reading handed over moves targets within range, and nothing that is at rest (R144). -/
theorem handReading_kept (s : State) (origin : GaugeSource) (reading : Nat) : Kept s (handReading s origin reading) := by
  obtain ⟨t, d, handed, _, fan, _, records⟩ := handReading_pass s origin reading
  rw [handed]
  intro w
  obtain ⟨gauges, fanWithin⟩ := w.bounded
  have bounded : d.Bounded :=
    ⟨fun g => by rw [records g]; exact retargeted_within origin reading s.tables g (gauges g), by rw [fan]; exact fanWithin⟩
  have rests : s.gauges.AtRest → d.AtRest := fun ⟨still, fanStill⟩ =>
    ⟨fun g => by rw [records g]; exact still g, by rw [fan]; exact fanStill⟩
  exact ⟨bounded, fun clear => rests (w.parked clear)⟩

/-- An update drives the gauges and the fan within range while IGNITION is set, and zeroes them while it is clear (R143). -/
theorem updateGauges_kept (s : State) : Kept s (updateGauges s) := by
  intro w
  cases ignition : s.ignition with
  | false =>
    rw [updateGauges_clear ignition]
    exact ⟨zeroed_bounded w.bounded, fun _ => zeroed_atRest s.gauges⟩
  | true =>
    obtain ⟨t, d, updated, _, _, records, fan⟩ := updateGauges_set ignition
    obtain ⟨gauges, fanWithin⟩ := w.bounded
    have asked : s.engine.fanRequest.val ≤ 7 := Nat.le_of_lt_succ s.engine.fanRequest.isLt
    have bounded : d.Bounded :=
      ⟨fun g => by rw [records g]; exact driven_within s.sampler s.tables g (gauges g),
        by rw [fan]; exact ramped_within s.sampler s.shed asked s.tables fanWithin⟩
    rw [updated]
    exact ⟨bounded, fun clear => absurd (ignition.symm.trans clear) nofun⟩

/-- A completed window reports to the event block and hands its average to the gauges (R133, R135). -/
theorem announceWindow_kept (s : State) (d : Fin 16) (e : DescriptorEntry) (before after : ThresholdState) (average : Nat) :
    Kept s (announceWindow s d e before after average) :=
  (handReading_kept _ _ _).after (by simp)

theorem presentSample_kept (s : State) (d : Fin 16) (code : Nat) : Kept s (presentSample s d code) := by
  unfold presentSample
  simp only
  split
  · exact .of_drive rfl
  · split
    · exact Kept.ite ((announceWindow_kept _ _ _ _ _ _).after rfl) (.of_drive rfl)
    · exact .of_drive rfl

/-! ## The route walk -/

theorem routeSender_kept (s : State) (e : RouteEntry) (payload : List Byte) : Kept s (routeSender s e payload) := by
  refine foldl_rel Kept.refl Kept.trans (fun u j => ?_) _ s
  split
  · exact Kept.ite (presentSample_kept u _ _) (.refl u)
  · exact .refl u

theorem drive_routeReport (s : State) (f : Frame) : drive (routeReport s f) = drive s := by
  have taken (u : State) (P : Fin 12) : drive (takeReport u P f.payload) = drive u := drive_of_lamps (takeReport_touches u P f.payload)
  unfold routeReport
  simp only
  split <;> simp [taken]

@[simp] theorem drive_forward (s : State) (p : PortId) (e : RouteEntry) (f : Frame) : drive (forward s p e f) = drive s := drive_setPort s _ _

/-- Of the actions of a matching entry a SENDER's alone reaches the gauges (R44 to R48). -/
theorem performRoute_kept (s : State) (p : PortId) (e : RouteEntry) (f : Frame) : Kept s (performRoute s p e f) := by
  have also {u : State} (h : Kept s u) : Kept s (if e.alsoForward then forward u p e f else u) := h.trans (.of_drive (by simp))
  unfold performRoute
  simp only
  split
  · exact also (.of_drive (drive_of_events (routeSwitch_touches s e f.payload)))
  · exact also (routeSender_kept s e f.payload)
  · exact also (.of_drive (drive_routeReport s f))
  · exact .of_drive (drive_forward s p e f)
  · exact .refl s

theorem walkRoute_kept (s : State) (p : PortId) (e : DirectoryEntry) (f : Frame) : Kept s (walkRoute s p e f) := by
  unfold walkRoute
  split
  · exact .of_drive rfl
  · simp only
    split
    · exact (performRoute_kept _ p _ f).after rfl
    · exact .of_drive rfl
    · exact .of_drive rfl

theorem drive_hear (s : State) (src : Fin 64) (e : DirectoryEntry) : drive (hear s src e) = drive s := by simp [hear]

theorem routeFrame_kept (s : State) (p : PortId) (f : Frame) : Kept s (routeFrame s p f) := by
  unfold routeFrame
  simp only
  split
  · exact .of_drive rfl
  · exact Kept.ite ((walkRoute_kept _ p _ f).after (drive_hear _ _ _)) (.of_drive rfl)

/-! ## The action engine -/

/-- A group of changes made on the drive it began with leaves it in order: it is zeroed where IGNITION clears (R143). -/
theorem commitGroup_inOrder {before s : State} (w : InOrder before) (same : s.gauges = before.gauges) : InOrder (commitGroup before s) := by
  have ignition : (commitGroup before s).ignition = s.ignition := by
    obtain ⟨_, _, _, _, _, committed, _⟩ := commitGroup_touches before s
    rw [committed]
    rfl
  by_cases clears : before.mode 0 = true ∧ s.mode 0 = false
  · obtain ⟨set, clear⟩ := clears
    have gauges : (commitGroup before s).gauges = before.gauges.zeroed := by
      rw [commitGroup_gauges, gaugesAfter_cleared set clear, same]
    exact ⟨by rw [gauges]; exact zeroed_bounded w.bounded, fun _ => by rw [gauges]; exact zeroed_atRest _⟩
  · have stands : before.mode 0 = false ∨ s.mode 0 = true :=
      (Decidable.not_and_iff_or_not.mp clears).imp eq_false_of_ne_true eq_true_of_ne_false
    have gauges : (commitGroup before s).gauges = before.gauges := by
      rw [commitGroup_gauges, gaugesAfter_stands stands, same]
    refine ⟨by rw [gauges]; exact w.bounded, fun clear => ?_⟩
    rw [ignition] at clear
    rw [gauges]
    exact w.parked (stands.resolve_right fun set => absurd (set.symm.trans clear) nofun)

/-- A walk leaves the gauge drive to the group of changes that follows it (R76). -/
theorem walk_gauges (ch : Chain) (n : Nat) (i : Fin 256) (s : State) : (walk ch n i s).gauges = s.gauges := by
  obtain ⟨_, _, _, _, walked, _⟩ := walk_walk ch n i s
  rw [walked]

theorem runWalk_kept (ch : Chain) (i : Fin 256) (s : State) : Kept s (runWalk ch i s) := fun w =>
  Kept.of_drive (drive_callChoice _) (commitGroup_inOrder w (walk_gauges ch 32 i s))

/-- The end of a chain frees a slot and clears a mark (R71). -/
theorem drive_endChain (ch : Chain) (s : State) : drive (endChain ch s) = drive s := by
  unfold endChain
  split <;> rfl

/-- A cancellation frees slots and clears a mark (R74). -/
@[simp] theorem drive_cancelChain (s : State) (c : Fin 32) : drive (cancelChain s c) = drive s := by
  rw [ChainSlots.cancelChain_eq]
  rfl

theorem takeChannel_kept (s : State) (c : Fin 32) (e : EventEntry) (edge : Edge) : Kept s (takeChannel s c e edge) := by
  unfold takeChannel
  simp only
  split
  · exact (runWalk_kept _ _ _).after (by simp)
  · exact .of_drive (by simp)

/-- A choice keeps the drive in order, whichever channels it looks at (R72). -/
theorem chooseFrom_kept : ∀ (cs : List (Fin 32)) (s : State), Kept s (chooseFrom cs s) := by
  intro cs
  induction cs with
  | nil => exact fun s => .of_drive rfl
  | cons c cs ih =>
    intro s
    simp only [chooseFrom]
    split
    · exact ih s
    · split
      · exact ih s
      · split
        · exact (ih _).after rfl
        · exact Kept.ite ((takeChannel_kept _ c _ _).after rfl) ((ih _).after rfl)

theorem resumeSlot_kept (s : State) (k : Fin 4) : Kept s (resumeSlot s k) := by
  unfold resumeSlot
  simp only
  split
  · exact .of_drive (drive_endChain ⟨(s.engine.slots[k]).channel, some k⟩ s)
  · exact runWalk_kept _ _ s

/-! ## The resets -/

/-- The stages of a reset after the first read entries and resolve loads. -/
theorem drive_resetBlocks (keep : Bool) (s : State) : drive (resetBlocks keep s) = drive (clearBlocks keep s) := by
  obtain ⟨_, _, routes, _⟩ := resetRoutes_touches (clearBlocks keep s)
  obtain ⟨_, _, events, _⟩ := resetEvents_touches (resetRoutes (clearBlocks keep s))
  obtain ⟨_, _, sampler, _⟩ := resetSampler_touches (resetEvents (resetRoutes (clearBlocks keep s)))
  refine (drive_of_lamps (resetLamps_touches _)).trans ?_
  rw [sampler, events, routes]
  rfl

/-- A reset leaves the drive in order, whatever it was (R142, R151). -/
theorem resetBlocks_inOrder (keep : Bool) (s : State) : InOrder (resetBlocks keep s) :=
  Kept.of_drive (drive_resetBlocks keep s) ⟨afterReset_bounded s.now, fun _ => afterReset_atRest s.now⟩

/-- The restart that a freed reply was waited for (R171). -/
theorem afterFreeing_kept (e : QueueEntry) (s : State) : Kept s (afterFreeing e s) := Kept.ite (fun _ => resetBlocks_inOrder true s) (.refl s)

theorem sendHead_kept {refilled : State → State} (h : ∀ u, drive (refilled u) = drive u) (s : State) (p : PortId) :
    Kept s (sendHead s p refilled) := by
  unfold sendHead
  simp only
  split
  · exact (afterFreeing_kept _ _).after (by simp [h])
  · exact .refl s

theorem abandonHead_kept {refilled : State → State} (h : ∀ u, drive (refilled u) = drive u) (s : State) (p : PortId) :
    Kept s (abandonHead s p refilled) := by
  unfold abandonHead
  simp only
  split
  · exact (afterFreeing_kept _ _).after (by simp [h])
  · exact .refl s

/-- A RESTART accepted resets the part at once or waits for its reply to leave (R171). -/
theorem beginRestart_kept (s : State) (p : PortId) (f : Frame) : Kept s (beginRestart s p f) :=
  Kept.ite (fun _ => resetBlocks_inOrder true _) (.of_drive (drive_setPort s p _))

/-! ## Every command -/

/-- What a command answers, if it answers a state, has the gauge drive in order where the command found it so. -/
def KeepsOrder (s : State) (r : Result) : Prop := ∀ t, r = .next t → Kept s t

theorem keepsOrder_next {s t : State} (h : Kept s t) : KeepsOrder s (.next t) := by
  intro u e
  cases e
  exact h

/-- A step of the blocks whose meaning keeps the order. -/
theorem live_keepsOrder {dt : Time} {s : State} {f : State → State} (h : ∀ u, Kept u (f u)) : KeepsOrder s (live dt s f) :=
  keepsOrder_next (Kept.ite ((h (s.elapse dt)).after rfl) (.of_drive rfl))

/-- A step of the blocks whose meaning leaves the drive and IGNITION. -/
theorem live_leavesDrive {dt : Time} {s : State} {f : State → State} (h : ∀ u, drive (f u) = drive u) : KeepsOrder s (live dt s f) :=
  live_keepsOrder fun u => .of_drive (h u)

/-! ### The commands that reach the drive or IGNITION -/

theorem execPowerOn_keepsOrder (dt : Time) (rise : FeedRise) (s : State) : KeepsOrder s (execPowerOn dt rise s) :=
  keepsOrder_next (Kept.ite (Kept.ite (fun _ => resetBlocks_inOrder false _) (.of_drive rfl)) (.of_drive rfl))

theorem execBrownOut_keepsOrder (dt : Time) (s : State) : KeepsOrder s (execBrownOut dt s) :=
  keepsOrder_next (Kept.ite (fun _ => resetBlocks_inOrder false _) (.of_drive rfl))

theorem execFrameSent_keepsOrder (dt : Time) (part : Freeing) (s : State) : KeepsOrder s (execFrameSent dt part s) :=
  live_keepsOrder fun u => by
    cases part with
    | withRefill p => exact sendHead_kept (drive_settleRefill · p) u p
    | alone p => exact sendHead_kept (drive_setRefillOwed · p true) u p
    | refill p => exact .of_drive (drive_owedRefill u p)

theorem execCollision_keepsOrder (dt : Time) (part : Freeing) (s : State) : KeepsOrder s (execCollision dt part s) :=
  live_keepsOrder fun u => by
    cases part with
    | withRefill p => exact abandonHead_kept (drive_settleRefill · p) u p
    | alone p => exact abandonHead_kept (drive_setRefillOwed · p true) u p
    | refill p => exact .of_drive (drive_owedRefill u p)

theorem execRestart_keepsOrder (dt : Time) (p : PortId) (s : State) : KeepsOrder s (execRestart dt p s) :=
  live_keepsOrder fun u => by
    split
    · exact (Kept.ite (beginRestart_kept u p _) (.of_drive (drive_answer u p _ _ _))).trans (.of_drive (drive_releasePool _ p))
    · exact .refl u

theorem execRouteWalk_keepsOrder (dt : Time) (p : PortId) (s : State) : KeepsOrder s (execRouteWalk dt p s) :=
  live_keepsOrder fun u => by
    split
    · exact (routeFrame_kept u p _).trans (.of_drive (drive_releasePool _ p))
    · exact .refl u

theorem execActionTake_keepsOrder (dt : Time) (s : State) : KeepsOrder s (execActionTake dt s) :=
  live_keepsOrder fun u => Kept.ite (.refl u) (chooseFrom_kept _ u)

theorem execChainResume_keepsOrder (dt : Time) (s : State) : KeepsOrder s (execChainResume dt s) :=
  live_keepsOrder fun u => by
    split
    · exact resumeSlot_kept u _
    · exact .refl u

theorem execConversion_keepsOrder (dt : Time) (c0 c1 c2 c3 : BitVec 10) (s : State) : KeepsOrder s (execConversion dt c0 c1 c2 c3 s) :=
  live_keepsOrder fun u => by
    have firstTwo (v : State) := (presentSample_kept v 0 c0.toNat).trans (presentSample_kept _ 1 c1.toNat)
    have allFour (v : State) := ((firstTwo v).trans (presentSample_kept _ 2 c2.toNat)).trans (presentSample_kept _ 3 c3.toNat)
    exact Kept.ite ((allFour _).after rfl) (.refl u)

theorem execGateExpiry_keepsOrder (dt : Time) (s : State) : KeepsOrder s (execGateExpiry dt s) :=
  live_keepsOrder fun u => Kept.ite ((handReading_kept _ _ _).after rfl) (.refl u)

theorem execGaugeUpdate_keepsOrder (dt : Time) (s : State) : KeepsOrder s (execGaugeUpdate dt s) :=
  live_keepsOrder fun u => Kept.ite (fun w => updateGauges_kept _ ⟨w.bounded, w.parked⟩) (.refl u)

/-! ### The commands that leave both -/

theorem execLowSupplyHold_keepsOrder (dt : Time) (s : State) : KeepsOrder s (execLowSupplyHold dt s) :=
  live_leavesDrive fun u => by
    rw [EventChannels.abandonStore_eq u]
    rfl

theorem execFeedFellBelow2V5_keepsOrder (dt : Time) (s : State) : KeepsOrder s (execFeedFellBelow2V5 dt s) :=
  keepsOrder_next (Kept.ite (.of_drive rfl) (.of_drive rfl))

theorem execBitsDisturbedInStorage_keepsOrder (dt : Time) (a : Area) (i : Nat) (d : Word16) (s : State) :
    KeepsOrder s (execBitsDisturbedInStorage dt a i d s) := by
  unfold execBitsDisturbedInStorage
  simp only
  split
  · exact keepsOrder_next (.of_drive rfl)
  · intro t e
    cases e

theorem execIgnitionInputChange_keepsOrder (dt : Time) (on : Bool) (s : State) : KeepsOrder s (execIgnitionInputChange dt on s) :=
  keepsOrder_next (Kept.ite (.of_drive rfl) (.of_drive rfl))

theorem execByteReceived_keepsOrder (dt : Time) (p : PortId) (edge : ByteEdge) (s : State) : KeepsOrder s (execByteReceived dt p edge s) :=
  keepsOrder_next (Kept.ite (.of_drive (drive_setPort _ p _)) (.of_drive (drive_setPort _ p _)))

theorem execFrameEnd_keepsOrder (dt : Time) (p : PortId) (s : State) : KeepsOrder s (execFrameEnd dt p s) :=
  live_leavesDrive fun u => by simp

theorem execSkipEnd_keepsOrder (dt : Time) (p : PortId) (s : State) : KeepsOrder s (execSkipEnd dt p s) :=
  live_leavesDrive fun u => by simp

theorem execTransmitStart_keepsOrder (dt : Time) (p : PortId) (s : State) : KeepsOrder s (execTransmitStart dt p s) :=
  live_leavesDrive fun u => by simp

theorem execSentByteReadBackEqual_keepsOrder (dt : Time) (p : PortId) (s : State) : KeepsOrder s (execSentByteReadBackEqual dt p s) :=
  live_leavesDrive fun u => by
    dsimp only
    split <;> simp

theorem execTransitCopy_keepsOrder (dt : Time) (p : PortId) (s : State) : KeepsOrder s (execTransitCopy dt p s) :=
  live_leavesDrive fun u => by split <;> simp

theorem execWaitExpiry_keepsOrder (dt : Time) (k : Fin 4) (s : State) : KeepsOrder s (execWaitExpiry dt k s) :=
  live_keepsOrder fun u => Kept.ite (.of_drive rfl) (.refl u)

theorem execWatchExpiry_keepsOrder (dt : Time) (src : Fin 64) (s : State) : KeepsOrder s (execWatchExpiry dt src s) :=
  live_leavesDrive fun u => by
    obtain ⟨_, _, _, expired, _⟩ := expireWatch_touches u src
    rw [expired]
    split <;> rfl

theorem execIgnitionDebounceExpiry_keepsOrder (dt : Time) (s : State) : KeepsOrder s (execIgnitionDebounceExpiry dt s) :=
  live_leavesDrive fun u => by
    obtain ⟨_, _, expired, _⟩ := expireDebounce_touches u
    rw [expired]
    split <;> rfl

theorem execLoadFadeExpiry_keepsOrder (dt : Time) (s : State) : KeepsOrder s (execLoadFadeExpiry dt s) :=
  live_leavesDrive fun u => by
    split
    · exact (drive_resolveLoads _ true _).trans rfl
    · rfl

theorem execCoolOffExpiry_keepsOrder (dt : Time) (l : Fin 32) (s : State) : KeepsOrder s (execCoolOffExpiry dt l s) :=
  live_leavesDrive fun u => by simp

theorem execRefreshExpiry_keepsOrder (dt : Time) (P : Fin 12) (s : State) : KeepsOrder s (execRefreshExpiry dt P s) :=
  live_keepsOrder fun u => Kept.ite (.of_drive (drive_of_lamps ((produceLampcmd_touches u P).trans (startRefresh_touches _ P)).1)) (.refl u)

theorem execReportTimerExpiry_keepsOrder (dt : Time) (P : Fin 12) (s : State) : KeepsOrder s (execReportTimerExpiry dt P s) :=
  live_keepsOrder fun u => Kept.ite (.of_drive (drive_of_blocks rfl rfl)) (.refl u)

theorem execFlasherTick_keepsOrder (dt : Time) (s : State) : KeepsOrder s (execFlasherTick dt s) := by
  have ticked (u : State) (t : Time) : drive (tickFlasher u t) = drive u := by
    obtain ⟨_, _, _, _, _, ticked, _⟩ := tickFlasher_touches u t
    rw [ticked]
    rfl
  exact live_leavesDrive fun u => by split <;> simp [ticked]

theorem execStaleExpiry_keepsOrder (dt : Time) (d : Fin 16) (s : State) : KeepsOrder s (execStaleExpiry dt d s) :=
  live_leavesDrive fun u => by simp

theorem execCoilPulse_keepsOrder (dt : Time) (s : State) : KeepsOrder s (execCoilPulse dt s) :=
  live_keepsOrder fun u => Kept.ite (.of_drive rfl) (.refl u)

theorem execIdentify_keepsOrder (dt : Time) (p : PortId) (s : State) : KeepsOrder s (execIdentify dt p s) :=
  live_leavesDrive fun u => by split <;> simp

theorem execBadRequest_keepsOrder (dt : Time) (p : PortId) (s : State) : KeepsOrder s (execBadRequest dt p s) :=
  live_leavesDrive fun u => by split <;> simp

theorem execReadTable_keepsOrder (dt : Time) (p : PortId) (s : State) : KeepsOrder s (execReadTable dt p s) :=
  live_leavesDrive fun u => by
    split
    · exact drive_request (drive_readTable u p _ _ _ _)
    · rfl

theorem execWriteTable_keepsOrder (dt : Time) (p : PortId) (s : State) : KeepsOrder s (execWriteTable dt p s) :=
  live_leavesDrive fun u => by
    split
    · refine drive_request ?_
      split
      · exact drive_answer u p _ _ _
      · split <;> simp
    · rfl

theorem execReadState_keepsOrder (dt : Time) (p : PortId) (s : State) : KeepsOrder s (execReadState dt p s) :=
  live_leavesDrive fun u => by
    split
    · refine drive_request ?_
      split <;> simp
    · rfl

theorem execReadCounters_keepsOrder (dt : Time) (p : PortId) (s : State) : KeepsOrder s (execReadCounters dt p s) :=
  live_leavesDrive fun u => by
    split
    · exact drive_request (drive_readCounters u p _ _ _)
    · rfl

theorem execClearLatch_keepsOrder (dt : Time) (p : PortId) (s : State) : KeepsOrder s (execClearLatch dt p s) :=
  live_leavesDrive fun u => by
    split
    · refine drive_request ?_
      split <;> simp
    · rfl

theorem execStore_keepsOrder (dt : Time) (p : PortId) (s : State) : KeepsOrder s (execStore dt p s) :=
  live_leavesDrive fun u => by
    split
    · exact drive_request (drive_beginStore u p _)
    · rfl

theorem execLoadLimp_keepsOrder (dt : Time) (p : PortId) (s : State) : KeepsOrder s (execLoadLimp dt p s) :=
  live_leavesDrive fun u => by
    split
    · refine drive_request ?_
      split
      · exact drive_answer u p _ _ _
      · split <;> simp
    · rfl

theorem execStoreComplete_keepsOrder (dt : Time) (verified : Bool) (s : State) : KeepsOrder s (execStoreComplete dt verified s) :=
  live_keepsOrder fun u => by
    split
    · exact Kept.ite (.of_drive (drive_setPort _ _ _)) (.of_drive (drive_setPort _ _ _))
    · exact .refl u
    · exact .refl u

/-- Every command keeps the gauge drive in order. -/
theorem exec_keepsOrder (c : Instr) (s : State) : KeepsOrder s (exec c s) := by
  cases c with
  | powerOn dt rise => exact execPowerOn_keepsOrder dt rise s
  | brownOut dt => exact execBrownOut_keepsOrder dt s
  | lowSupplyHold dt => exact execLowSupplyHold_keepsOrder dt s
  | feedFellBelow2V5 dt => exact execFeedFellBelow2V5_keepsOrder dt s
  | bitsDisturbedInStorage dt a i d => exact execBitsDisturbedInStorage_keepsOrder dt a i d s
  | ignitionInputChange dt on => exact execIgnitionInputChange_keepsOrder dt on s
  | byteReceived dt p edge => exact execByteReceived_keepsOrder dt p edge s
  | frameEnd dt p => exact execFrameEnd_keepsOrder dt p s
  | skipEnd dt p => exact execSkipEnd_keepsOrder dt p s
  | transmitStart dt p => exact execTransmitStart_keepsOrder dt p s
  | sentByteReadBackEqual dt p => exact execSentByteReadBackEqual_keepsOrder dt p s
  | frameSent dt part => exact execFrameSent_keepsOrder dt part s
  | collision dt part => exact execCollision_keepsOrder dt part s
  | transitCopy dt p => exact execTransitCopy_keepsOrder dt p s
  | routeWalk dt p => exact execRouteWalk_keepsOrder dt p s
  | actionTake dt => exact execActionTake_keepsOrder dt s
  | chainResume dt => exact execChainResume_keepsOrder dt s
  | waitExpiry dt k => exact execWaitExpiry_keepsOrder dt k s
  | watchExpiry dt src => exact execWatchExpiry_keepsOrder dt src s
  | ignitionDebounceExpiry dt => exact execIgnitionDebounceExpiry_keepsOrder dt s
  | loadFadeExpiry dt => exact execLoadFadeExpiry_keepsOrder dt s
  | coolOffExpiry dt l => exact execCoolOffExpiry_keepsOrder dt l s
  | refreshExpiry dt P => exact execRefreshExpiry_keepsOrder dt P s
  | reportTimerExpiry dt P => exact execReportTimerExpiry_keepsOrder dt P s
  | flasherTick dt => exact execFlasherTick_keepsOrder dt s
  | conversion dt c0 c1 c2 c3 => exact execConversion_keepsOrder dt c0 c1 c2 c3 s
  | staleExpiry dt d => exact execStaleExpiry_keepsOrder dt d s
  | coilPulse dt => exact execCoilPulse_keepsOrder dt s
  | gateExpiry dt => exact execGateExpiry_keepsOrder dt s
  | gaugeUpdate dt => exact execGaugeUpdate_keepsOrder dt s
  | identify dt p => exact execIdentify_keepsOrder dt p s
  | badRequest dt p => exact execBadRequest_keepsOrder dt p s
  | readTable dt p => exact execReadTable_keepsOrder dt p s
  | writeTable dt p => exact execWriteTable_keepsOrder dt p s
  | readState dt p => exact execReadState_keepsOrder dt p s
  | readCounters dt p => exact execReadCounters_keepsOrder dt p s
  | clearLatch dt p => exact execClearLatch_keepsOrder dt p s
  | store dt p => exact execStore_keepsOrder dt p s
  | loadLimp dt p => exact execLoadLimp_keepsOrder dt p s
  | restart dt p => exact execRestart_keepsOrder dt p s
  | storeComplete dt verified => exact execStoreComplete_keepsOrder dt verified s

/-- Settles O49: an idle step changes nothing, and every command keeps the gauge drive in order. -/
theorem stepKeepsGauges : Obligations.StepKeepsGauges := by
  intro s t bounded parked e
  have kept : InOrder t := by
    unfold step at e
    split at e
    · cases e
      exact ⟨bounded, parked⟩
    · next c rest _ => exact exec_keepsOrder c { s with pending := rest } t e ⟨bounded, parked⟩
  exact ⟨kept.bounded, kept.parked⟩

end Sys2Proof.Machine.GaugeSteps
end

section
/-! PROOFS. The service requests judged in order (R159 to R161, R182): the codes and lengths allowed and what an allowed payload reads as, the data of
IDENTIFY, and the replies BAD-REQUEST and BUSY. -/

namespace Sys2Proof.Machine.ServiceRequests

/-! ## The words of a payload -/

/-- Two bytes for each word read. -/
theorem length_of_wordsOf : ∀ {bytes : List Byte} {ws : List Word16}, wordsOf bytes = some ws → bytes.length = 2 * ws.length
  | [], ws, read => by
    obtain rfl : [] = ws := Option.some.inj read
    rfl
  | hi :: lo :: rest, ws, read => by
    obtain ⟨vs, tail, rfl⟩ := Option.map_eq_some_iff.mp read
    simp only [List.length_cons, length_of_wordsOf tail]
    omega

/-- An even count of bytes reads as words. -/
theorem exists_wordsOf : ∀ {bytes : List Byte}, bytes.length % 2 = 0 → ∃ ws, wordsOf bytes = some ws
  | [], _ => ⟨[], rfl⟩
  | [_], odd => absurd odd Nat.one_ne_zero
  | hi :: lo :: rest, even => by
    obtain ⟨ws, read⟩ := exists_wordsOf (bytes := rest) (by simp only [List.length_cons] at even; omega)
    exact ⟨_, congrArg (Option.map _) read⟩

/-- A word read from its own bytes. -/
theorem ofNat_pair_twoBytes (w : Word16) : BitVec.ofNat 16 (pair (BitVec.ofNat 8 (w.toNat / 256)) (BitVec.ofNat 8 w.toNat)) = w := by
  refine BitVec.eq_of_toNat_eq ?_
  simp only [pair, BitVec.toNat_ofNat]
  omega

/-- Words read back from their bytes. -/
theorem wordsOf_flatMap (ws : List Word16) : wordsOf (ws.flatMap fun w => twoBytes w.toNat) = some ws := by
  induction ws with
  | nil => rfl
  | cons w ws ih =>
    simp only [List.flatMap_cons, twoBytes, List.cons_append, List.nil_append, wordsOf, ofNat_pair_twoBytes]
    exact congrArg (Option.map (w :: ·)) ih

/-! ## The codes and lengths allowed -/

/-- The code and length, in bytes, of a request the tables of R159 and R182 name. -/
abbrev Allowed (code n : Nat) : Prop :=
  (code = 1 ∧ n = 1) ∨ (code = 2 ∧ n = 5) ∨ (code = 3 ∧ 6 ≤ n ∧ n ≤ 16 ∧ n % 2 = 0) ∨ (code = 4 ∧ n = 3) ∨ (code = 5 ∧ n = 3) ∨
    (code = 6 ∧ n = 2) ∨ (code = 7 ∧ n = 1) ∨ (code = 8 ∧ n = 2) ∨ (code = 9 ∧ n = 1)

/-- A WRITE-TABLE's operand bytes: an area, an index, and one to six words (R182). -/
theorem decodeOperands_writeTable (area hi lo : Byte) (data : List Byte) :
    decodeOperands 3 (area :: hi :: lo :: data) =
      (wordsOf data).bind fun ws => if 1 ≤ ws.length ∧ ws.length ≤ 6 then some (.writeTable area (pair hi lo) ws) else none := by
  show (match wordsOf data with
    | some ws => if 1 ≤ ws.length ∧ ws.length ≤ 6 then some (Request.writeTable area (pair hi lo) ws) else none
    | none => none) = _
  cases wordsOf data <;> rfl

/-- A WRITE-TABLE is allowed with one to six words (R182). -/
theorem decodeOperands_writeTable_isSome (area hi lo : Byte) (data : List Byte) :
    (decodeOperands 3 (area :: hi :: lo :: data)).isSome = true ↔ 2 ≤ data.length ∧ data.length ≤ 12 ∧ data.length % 2 = 0 := by
  rw [decodeOperands_writeTable]
  cases read : wordsOf data with
  | none =>
    have odd : data.length % 2 ≠ 0 := fun even => by
      obtain ⟨ws, some⟩ := exists_wordsOf even
      simp [read] at some
    simp [odd]
  | some ws =>
    have length := length_of_wordsOf read
    by_cases few : 1 ≤ ws.length ∧ ws.length ≤ 6
    · simp only [Option.bind_some, if_pos few, Option.isSome_some, true_iff]
      omega
    · simp only [Option.bind_some, if_neg few, Option.isSome_none, Bool.false_eq_true, false_iff]
      omega

/-- The codes and lengths of requests, on the operand bytes (R159, R182). -/
theorem decodeOperands_isSome (code : Nat) (ops : List Byte) : (decodeOperands code ops).isSome = true ↔ Allowed code (ops.length + 1) :=
  match code, ops with
  | 0, _ => iff_of_false Bool.false_ne_true (by simp)
  | 1, ops => match ops with
    | [] => iff_of_true rfl (by simp [Allowed])
    | _ :: _ => iff_of_false Bool.false_ne_true (by simp)
  | 2, ops => match ops with
    | [_, _, _, _] => iff_of_true rfl (by simp [Allowed])
    | [] | [_] | [_, _] | [_, _, _] | _ :: _ :: _ :: _ :: _ :: _ => iff_of_false Bool.false_ne_true (by simp)
  | 3, ops => match ops with
    | area :: hi :: lo :: data => by
      rw [decodeOperands_writeTable_isSome]
      simp only [List.length_cons]
      omega
    | [] | [_] | [_, _] => iff_of_false Bool.false_ne_true (by simp)
  | 4, ops | 5, ops => match ops with
    | [_, _] => iff_of_true rfl (by simp [Allowed])
    | [] | [_] | _ :: _ :: _ :: _ => iff_of_false Bool.false_ne_true (by simp)
  | 6, ops | 8, ops => match ops with
    | [_] => iff_of_true rfl (by simp [Allowed])
    | [] | _ :: _ :: _ => iff_of_false Bool.false_ne_true (by simp)
  | 7, ops | 9, ops => match ops with
    | [] => iff_of_true rfl (by simp [Allowed])
    | _ :: _ => iff_of_false Bool.false_ne_true (by simp)
  | _ + 10, _ => iff_of_false Bool.false_ne_true (by omega)

/-- The codes and lengths of requests, on the bytes of a payload (R159, R182). -/
theorem decodeRequest_isSome (code : Byte) (ops : List Byte) :
    (decodeRequest (code :: ops)).isSome = true ↔ Allowed code.toNat (ops.length + 1) := decodeOperands_isSome code.toNat ops

/-! ## Requests taken -/

section Taken

variable {p : PortId} {s : State} {f : Frame}

/-- A request answered with one reply at the moment of its command, and its pool released (R159, R160). -/
theorem answer_elapse (dt : Time) (p : PortId) (s : State) (f : Frame) (status : Status) (data : List Byte) :
    (answer (s.elapse dt) p f status data).releasePool p =
      ({ s with now := s.now + dt } : State).setPort p
        ((s.port p).replied ⟨f.src, s.hubAddress, 5, f.payload.headD 0xFF#8 :: BitVec.ofNat 8 status.code :: data⟩) := by
  rw [answer_releasePool, State.port_elapse]
  rfl

/-- The request a consumer finds in an allowed payload. -/
theorem request_of_decode {r : Option Request} (serves : s.Serves p .serviceRequest f) (reads : decodeRequest f.payload = r) :
    (s.port p).request = some (f, r) := by
  rw [serves.request, reads]

/-- A request that finds the engine busy is answered so and not performed (R159). -/
theorem unlessBusy_busy {u : State} (busy : u.service ≠ .idle) (p : PortId) (f : Frame) (perform : State → State) :
    unlessBusy u p f perform = answer u p f .busy [] := if_neg busy

/-- A request that finds the engine idle is performed (R159). -/
theorem unlessBusy_idle {u : State} (idle : u.service = .idle) (p : PortId) (f : Frame) (perform : State → State) :
    unlessBusy u p f perform = perform u := if_pos idle

/-- The command that takes a request other than IDENTIFY at a port. -/
abbrev Takes (c : Instr) (p : PortId) (r : Request) : Prop :=
  match c, r with
  | .readTable _ q, .readTable _ _ _ => q = p
  | .writeTable _ q, .writeTable _ _ _ => q = p
  | .readState _ q, .readState _ _ => q = p
  | .readCounters _ q, .readCounters _ _ => q = p
  | .clearLatch _ q, .clearLatch _ => q = p
  | .store _ q, .store => q = p
  | .loadLimp _ q, .loadLimp _ => q = p
  | .restart _ q, .restart => q = p
  | _, _ => False

/-- A request other than IDENTIFY that finds the engine STORING or RESTARTING is answered BUSY (R159). -/
theorem exec_busy {c : Instr} {r : Request} (serves : s.Serves p .serviceRequest f) (reads : decodeRequest f.payload = some r)
    (busy : s.service ≠ .idle) (takes : Takes c p r) :
    exec c s = .next (({ s with now := s.now + c.elapsed } : State).setPort p
      ((s.port p).replied ⟨f.src, s.hubAddress, 5, [f.payload.headD 0xFF#8, 4#8]⟩)) := by
  have asked := request_of_decode serves reads
  have later (dt : Time) : (s.elapse dt).service ≠ .idle := busy
  refine .trans ?_ (congrArg Host.Outcome.next (answer_elapse c.elapsed p s f .busy []))
  unfold Takes at takes
  split at takes
  case h_9 => exact takes.elim
  all_goals
    subst takes
    simp only [exec, execReadTable, execWriteTable, execReadState, execReadCounters, execClearLatch, execStore, execLoadLimp, execRestart,
      live_running serves.1, State.port_elapse, asked, unlessBusy_busy (later _), Instr.elapsed]

/-- IDENTIFY is answered in every state of the service engine (R161). -/
theorem execIdentify_asked (dt : Time) (serves : s.Serves p .serviceRequest f) (reads : decodeRequest f.payload = some .identify) :
    execIdentify dt p s = .next ((answer (s.elapse dt) p f .done (identifyData (s.elapse dt))).releasePool p) := by
  simp only [execIdentify, live_running serves.1, State.port_elapse, request_of_decode serves reads]

/-- A payload whose code or length is not allowed is answered in every state of the service engine (R159). -/
theorem execBadRequest_asked (dt : Time) (serves : s.Serves p .serviceRequest f) (reads : decodeRequest f.payload = none) :
    execBadRequest dt p s = .next ((answer (s.elapse dt) p f .badRequest []).releasePool p) := by
  simp only [execBadRequest, live_running serves.1, State.port_elapse, request_of_decode serves reads]

/-- STORE is performed by an idle engine (R169). -/
theorem execStore_asked (dt : Time) (serves : s.Serves p .serviceRequest f) (reads : decodeRequest f.payload = some .store)
    (idle : s.service = .idle) : execStore dt p s = .next ((beginStore (s.elapse dt) p f).releasePool p) := by
  have ready : (s.elapse dt).service = .idle := idle
  simp only [execStore, live_running serves.1, State.port_elapse, request_of_decode serves reads, unlessBusy_idle ready]

/-- RESTART is performed by an idle engine (R171). -/
theorem execRestart_asked (dt : Time) (serves : s.Serves p .serviceRequest f) (reads : decodeRequest f.payload = some .restart)
    (idle : s.service = .idle) : execRestart dt p s = .next ((beginRestart (s.elapse dt) p f).releasePool p) := by
  have ready : (s.elapse dt).service = .idle := idle
  simp only [execRestart, live_running serves.1, State.port_elapse, request_of_decode serves reads, unlessBusy_idle ready]

end Taken

/-! ## The data of IDENTIFY -/

/-- The straps byte: EARTH NEGATIVE in bit 0, LIMP COMBINED in bit 1 (R182). -/
theorem strapsByte_eq (x : Straps) :
    strapsByte x = (if x.earth = .negative then 1 else 0) + (if x.limp = .combined then 2 else 0) := by
  obtain ⟨_, earth, limp⟩ := x
  cases earth <;> cases limp <;> rfl

/-- The data of IDENTIFY, byte by byte (R161, R182). -/
theorem identifyData_eq (s : State) :
    identifyData s =
      [0x02#8, 0x80#8, 1#8, BitVec.ofNat 8 s.hubAddress.val, BitVec.ofNat 8 (strapsByte s.straps), BitVec.ofNat 8 (sourceByte s.tables.source),
        BitVec.ofNat 8 s.tables.tableFault.toNat, BitVec.ofNat 8 (s.tables.marked.length / 256), BitVec.ofNat 8 s.tables.marked.length,
        BitVec.ofNat 8 (serviceByte s.service)] := rfl

/-- Settles O50: the request each command finds, the order in which it is judged, and the codes, lengths and operands of a payload. -/
theorem requestsAreJudgedInOrder : Obligations.RequestsAreJudgedInOrder := by
  refine ⟨?_, fun c p s f r serves reads busy takes => exec_busy serves reads busy takes, fun dt p s f serves reads => ?_, rfl, ?_, ?_⟩
  · intro dt p s f serves payload straps source fault n state
    have reads : decodeRequest f.payload = some .identify := by rw [payload]; rfl
    have strapsSent : BitVec.ofNat 8 (strapsByte s.straps) = straps := by rw [strapsByte_eq]
    have sourceSent : BitVec.ofNat 8 (sourceByte s.tables.source) = source := by cases read : s.tables.source <;> simp [source, read, sourceByte]
    have faultSent : BitVec.ofNat 8 s.tables.tableFault.toNat = fault := by cases read : s.tables.tableFault <;> simp [fault, read]
    have stateSent : BitVec.ofNat 8 (serviceByte s.service) = state := by cases read : s.service <;> simp [state, read, serviceByte]
    refine (execIdentify_asked dt serves reads).trans (congrArg Host.Outcome.next ?_)
    rw [answer_elapse, payload, identifyData_eq]
    simp only [State.elapse_straps, State.elapse_tables, State.elapse_service, strapsSent, sourceSent, faultSent, stateSent]
    rfl
  · exact (execBadRequest_asked dt serves reads).trans (congrArg Host.Outcome.next (answer_elapse dt p s f .badRequest []))
  · intro code ops n
    rw [decodeRequest_isSome]
    simp only [← BitVec.toNat_inj, BitVec.toNat_ofNat]
    rfl
  · intro a hi lo b ws index
    refine ⟨rfl, rfl, fun least most => ?_, rfl, rfl, rfl, rfl, rfl, rfl⟩
    exact (decodeOperands_writeTable a hi lo _).trans ((congrArg (Option.bind · _) (wordsOf_flatMap ws)).trans (if_pos ⟨least, most⟩))

end Sys2Proof.Machine.ServiceRequests
end

section
/-! PROOFS. STORE and STORE_COMPLETE (R169, R170): the check of every word, the image programmed, and what a programming that is not verified
leaves. -/

namespace Sys2Proof.Machine.StoreProgramming

open ServiceRequests

/-! ## The image -/

/-- The image of a STORE holds the words as read (R169). -/
theorem read_storeImage_word (t : TableStore) {a : Nat} (h : a < tableWords) : Memory.read nvUnlisted (storeImage t) a = (t.word a).data := by
  have inside : a < nvWords := Nat.lt_succ_of_lt h
  rw [storeImage, Memory.read_ofFn, if_pos inside, if_pos h]

/-- The image of a STORE ends in the check word of its words (R13, R169). -/
theorem read_storeImage_check (t : TableStore) : Memory.read nvUnlisted (storeImage t) tableWords = nvCheck fun a => (t.word a).data := by
  rw [storeImage, Memory.read_ofFn, if_pos (Nat.lt_succ_self tableWords), if_neg (Nat.lt_irrefl tableWords)]

/-- A programming that failed leaves free words (R170, log 9). -/
theorem read_brokenImage (draw : Nat) {a : Nat} (h : a < nvWords) :
    Memory.read nvUnlisted (brokenImage draw) a = Config.nvAfterBrokenProgramming draw a := by
  rw [brokenImage, Memory.read_ofFn, if_pos h]

/-! ## The check of every word -/

/-- The check of every word finds a failing one (R169). -/
theorem failing_ne_nil {t : TableStore} (h : ∃ a < tableWords, (t.word a).fails = true) : t.failing 0 tableWords ≠ [] := by
  obtain ⟨a, inside, fails⟩ := h
  have found : a ∈ t.failing 0 tableWords := TableStore.mem_failing.mpr ⟨⟨Nat.zero_le a, by omega⟩, fails⟩
  exact List.ne_nil_of_mem found

/-- Where no word of the store fails, it finds none (R169). -/
theorem failing_eq_nil {t : TableStore} (h : ∀ a < tableWords, (t.word a).fails = false) : t.failing 0 tableWords = [] := by
  refine List.eq_nil_iff_forall_not_mem.mpr fun a found => ?_
  obtain ⟨⟨_, inside⟩, fails⟩ := TableStore.mem_failing.mp found
  exact Bool.false_ne_true ((h a (by omega)).symm.trans fails)

/-- The store after a STORE that found failing words: PARITY counted once and each of them marked (R10, R169). -/
def checkedTables (t : TableStore) : TableStore := { t.markAll (t.failing 0 tableWords) with parityCount := t.parityCount.bump }

/-- What the check of a STORE answers where a word fails (R10, R169). -/
theorem readBlock_failing {t : TableStore} (h : ∃ a < tableWords, (t.word a).fails = true) : t.readBlock 0 tableWords = (checkedTables t, none) :=
  TableStore.readBlock_bad (failing_ne_nil h)

/-- Each failing word is marked (R10). -/
theorem checkedTables_mark (t : TableStore) {a : Nat} (inside : a < tableWords) (fails : (t.word a).fails = true) :
    ((checkedTables t).word a).mark = true := by
  obtain ⟨_, words, _⟩ := TableStore.markAll_spec (t.failing 0 tableWords) t
  have found : a ∈ t.failing 0 tableWords := TableStore.mem_failing.mpr ⟨⟨Nat.zero_le a, by omega⟩, fails⟩
  have marked : (checkedTables t).word a = _ := words a
  rw [marked]
  simp [found]

/-- A STORE that finds a failing word ends at once (R169). -/
theorem beginStore_failing {s : State} (h : ∃ a < tableWords, (s.tables.word a).fails = true) (p : PortId) (f : Frame) :
    beginStore s p f = answer (s.withTables (checkedTables s.tables)) p f .failed [] := by
  simp only [beginStore, readBlock_failing h]

/-- A STORE that finds none is in flight (R169). -/
theorem beginStore_good {s : State} (h : ∀ a < tableWords, (s.tables.word a).fails = false) (p : PortId) (f : Frame) :
    beginStore s p f = { s with service := .storing f.src p (storeImage s.tables) } := by
  simp only [beginStore, TableStore.readBlock_good (failing_eq_nil h)]

/-- A STORE that finds a failing word: the store as checked, and the reply FAILED (R169). -/
theorem execStore_failing (dt : Time) {p : PortId} {s : State} {f : Frame} (serves : s.Serves p .serviceRequest f) (idle : s.service = .idle)
    (payload : f.payload = [7#8]) (failing : ∃ a < tableWords, (s.tables.word a).fails = true) :
    execStore dt p s =
      .next { (({ s with now := s.now + dt } : State).setPort p ((s.port p).replied ⟨f.src, s.hubAddress, 5, [7#8, 5#8]⟩)) with
        tables := checkedTables s.tables } := by
  have reads : decodeRequest f.payload = some .store := by rw [payload]; rfl
  refine (execStore_asked dt serves reads idle).trans (congrArg Host.Outcome.next ?_)
  rw [beginStore_failing (s := s.elapse dt) failing]
  refine (answer_elapse dt p (s.withTables (checkedTables s.tables)) f .failed []).trans ?_
  rw [payload]
  cases p <;> rfl

/-- A STORE that finds none is in flight with no reply: the requester and the words as read are held (R169). -/
theorem execStore_good (dt : Time) {p : PortId} {s : State} {f : Frame} (serves : s.Serves p .serviceRequest f) (idle : s.service = .idle)
    (payload : f.payload = [7#8]) (good : ∀ a < tableWords, (s.tables.word a).fails = false) :
    execStore dt p s =
      .next { (({ s with now := s.now + dt } : State).setPort p (s.port p).release) with service := .storing f.src p (storeImage s.tables) } := by
  have reads : decodeRequest f.payload = some .store := by rw [payload]; rfl
  refine (execStore_asked dt serves reads idle).trans (congrArg Host.Outcome.next ?_)
  rw [beginStore_good (s := s.elapse dt) good]
  cases p <;> rfl

/-! ## The completion -/

section Completion

variable {s : State} {r : LoomAddr} {p : PortId} {image : List (Nat × Word16)}

/-- STORE_COMPLETE with the programming verified: the image is the words held, the source NV, and the reply DONE (R170). -/
theorem execStoreComplete_verified (dt : Time) (running : s.power = .running) (storing : s.service = .storing r p image) :
    execStoreComplete dt true s =
      .next { (({ s with now := s.now + dt } : State).setPort p ((s.port p).offerReply ⟨r, s.hubAddress, 5, [7#8, 0#8]⟩ false)) with
        service := .idle, nv := image, tables := { s.tables with source := .nv } } := by
  simp only [execStoreComplete, live_running running, State.elapse, storing, if_true]
  cases p <;> rfl

/-- STORE_COMPLETE with the programming not verified: the image is free, and the reply FAILED (R170, log 9). -/
theorem execStoreComplete_failed (dt : Time) (running : s.power = .running) (storing : s.service = .storing r p image) :
    execStoreComplete dt false s =
      .next { (({ s with now := s.now + dt } : State).setPort p ((s.port p).offerReply ⟨r, s.hubAddress, 5, [7#8, 5#8]⟩ false)) with
        service := .idle, nv := brokenImage s.draws, draws := s.draws + 1 } := by
  simp only [execStoreComplete, live_running running, State.elapse, storing, Bool.false_eq_true, if_false]
  generalize brokenImage s.draws = broken
  cases p <;> rfl

end Completion

/-- Settles O55: the words checked at the acceptance, and the two ends of the programming. -/
theorem storeProgramsTheImage : Obligations.StoreProgramsTheImage := by
  refine ⟨fun dt p s f serves idle payload => ⟨fun failing => ?_, fun good => ?_⟩, fun dt s r p image running storing => ⟨?_, ?_⟩⟩
  · have checked := s.tables.readBlock_reads 0 tableWords (Nat.le_of_eq (Nat.zero_add _))
    rw [readBlock_failing failing] at checked
    exact ⟨_, execStore_failing dt serves idle payload failing, rfl, checked.1, rfl, fun a => checkedTables_mark s.tables⟩
  · exact ⟨_, execStore_good dt serves idle payload good, fun a => read_storeImage_word s.tables, read_storeImage_check s.tables⟩
  · exact execStoreComplete_verified dt running storing
  · have broken (a : Nat) (inside : a < nvWords) := read_brokenImage s.draws inside
    have completed := execStoreComplete_failed dt running storing
    generalize brokenImage s.draws = free at broken completed
    exact ⟨_, completed, rfl, broken⟩

end Sys2Proof.Machine.StoreProgramming
end

section
/-! PROOFS. What every reset sets up (R32, R36, R55, R57, R70, R93, R100, R114, R131, R139, R142, R143, R151, R158): the records that a reset's reads
set, entry by entry, and the resolution of a load block at rest. -/

namespace Sys2Proof.Machine.ResetSetUp

open LoadResolution LampPods

/-! ## Records set from the entries of the tables -/

/-- One step of a pass over records, each set from its own entry of the tables: which block reads leave as it is. -/
structure SetsRecords {α : Type} {n : Nat} (record : TableStore → Fin n → α → α) (step : TableStore × Vector α n → Fin n → TableStore × Vector α n) :
    Prop where
  reads : ∀ (p : TableStore × Vector α n) (i : Fin n), p.1.Reads (step p i).1
  records : ∀ (p : TableStore × Vector α n) (i : Fin n), (step p i).2 = upd p.2 i (record p.1 i)
  stable : ∀ {t u : TableStore}, t.Reads u → record u = record t

section Pass

variable {α : Type} {n : Nat} {record : TableStore → Fin n → α → α} {step : TableStore × Vector α n → Fin n → TableStore × Vector α n}

/-- A pass over some records sets each once, from the tables as the pass finds them. -/
theorem SetsRecords.foldl (h : SetsRecords record step) (j : Fin n) : ∀ (is : List (Fin n)), is.Nodup → ∀ p : TableStore × Vector α n,
    (is.foldl step p).2[j] = if j ∈ is then record p.1 j p.2[j] else p.2[j] := by
  intro is
  induction is with
  | nil => exact fun _ _ => rfl
  | cons i is ih =>
    intro distinct p
    obtain ⟨new, distinct⟩ := List.nodup_cons.mp distinct
    rw [List.foldl_cons, ih distinct, h.stable (h.reads p i), h.records, upd_get]
    by_cases first : i = j
    · subst first
      simp [new]
    · simp [first, Ne.symm first]

/-- A pass over all records. -/
theorem SetsRecords.all (h : SetsRecords record step) (p : TableStore × Vector α n) :
    p.1.Reads ((List.finRange n).foldl step p).1 ∧ ∀ j : Fin n, ((List.finRange n).foldl step p).2[j] = record p.1 j p.2[j] :=
  ⟨foldl_rel (R := fun p q : TableStore × Vector α n => p.1.Reads q.1) (fun _ => .refl _) (fun h k => h.trans k) h.reads _ p,
    fun j => (h.foldl j _ (List.nodup_finRange n) p).trans (if_pos (List.mem_finRange j))⟩

end Pass

/-- A source's record once its slot is read: a slot that watches starts the watch timer (R36). -/
def watching (now : Time) (t : TableStore) (a : Fin 64) (r : SourceRecord) : SourceRecord :=
  match (t.directory a).2 with
  | some e => { r with watch := watchDeadline now e.watch }
  | none => r

theorem startWatch_sets (now : Time) : SetsRecords (watching now) (startWatch now) where
  reads p a := startWatch_reads now p a
  records p a := by
    simp only [startWatch]
    cases slot : (p.1.directory a).2 with
    | some e => exact congrArg (upd p.2 a) (funext fun r => by simp only [watching, slot])
    | none => exact (EventChannels.upd_of_fixed (by simp only [watching, slot])).symm
  stable h := by
    funext a r
    simp only [watching, h.directory]

/-- A channel's record once its EVENT entry is read: masked as the entry has it, and where the read fails (R55, R12). -/
def channelOf (t : TableStore) (c : Fin 32) : Channel := .afterReset (((t.event c).2.map (·.initialMask)).getD true)

theorem setUpChannel_sets : SetsRecords (fun t c _ => channelOf t c) setUpChannel where
  reads p c := setUpChannel_reads p c
  records p c := by
    simp only [setUpChannel, channelOf]
    cases (p.1.event c).2 <;> rfl
  stable h := by
    funext c _
    simp only [channelOf, h.event]

/-- A descriptor's record once its entry is read: an entry with a stale time starts the stale timer (R131). -/
def timed (now : Time) (t : TableStore) (d : Fin 16) (r : DescriptorRecord) : DescriptorRecord :=
  match (t.descriptor d).2 with
  | some e => { r with staleTimer := staleDeadline now e.stale }
  | none => r

theorem startStale_sets (now : Time) : SetsRecords (timed now) (startStale now) where
  reads p d := startStale_reads now p d
  records p d := by
    simp only [startStale]
    cases entry : (p.1.descriptor d).2 with
    | some e => exact congrArg (upd p.2 d) (funext fun r => by simp only [timed, entry])
    | none => exact (EventChannels.upd_of_fixed (by simp only [timed, entry])).symm
  stable h := by
    funext d r
    simp only [timed, h.descriptor]

theorem resetRoutes_sets (s : State) : ∃ t v, resetRoutes s = { s with tables := t, routes := { s.routes with sources := v } } ∧ s.tables.Reads t ∧
    ∀ a : Fin 64, v[a] = watching s.now s.tables a s.routes.sources[a] :=
  ⟨_, _, rfl, (startWatch_sets s.now).all (s.tables, s.routes.sources)⟩

theorem resetEvents_sets (s : State) : ∃ t v, resetEvents s = { s with tables := t, events := { s.events with channels := v } } ∧ s.tables.Reads t ∧
    ∀ c : Fin 32, v[c] = channelOf s.tables c :=
  ⟨_, _, rfl, setUpChannel_sets.all (s.tables, s.events.channels)⟩

theorem resetSampler_sets (s : State) : ∃ t v, resetSampler s = { s with tables := t, sampler := { s.sampler with descriptors := v } } ∧
    s.tables.Reads t ∧ ∀ d : Fin 16, v[d] = timed s.now s.tables d s.sampler.descriptors[d] :=
  ⟨_, _, rfl, (startStale_sets s.now).all (s.tables, s.sampler.descriptors)⟩

/-! ## The pods' timers -/

/-- A pod's record with both timers started, of a refresh period (R100). -/
def podTimed (now : Time) (period : Nat) (r : PodRecord) : PodRecord :=
  { r with refresh := some (now + period * Config.ms500), report := some (now + 3 * period * Config.ms500) }

theorem startTimers_eq (s : State) (P : Fin 12) : ∃ t, s.tables.Reads t ∧
    startReport (startRefresh s P) P = (s.withTables t).updPod P (podTimed s.now (s.tables.peekParam .refreshPeriod)) := by
  have first := s.tables.param_reads .refreshPeriod
  refine ⟨_, first.trans (TableStore.param_reads _ .refreshPeriod), ?_⟩
  have again : ((s.tables.param .refreshPeriod).1.param .refreshPeriod).2 = s.tables.peekParam .refreshPeriod := by
    rw [first.param, TableStore.param_value]
  simp only [startReport, startRefresh, State.updPod_tables, State.withTables_tables, again, TableStore.param_value, State.updPod_now,
    State.withTables_now]
  simp only [State.updPod, State.withTables, EventChannels.upd_upd]
  rfl

/-- The pods' timers started one after another (R100). -/
theorem foldl_startTimers : ∀ (ps : List (Fin 12)) (s : State),
    ∃ t v, ps.foldl (fun s P => startReport (startRefresh s P) P) s = { s with tables := t, lamps := { s.lamps with pods := v } } ∧
      s.tables.Reads t ∧
        ∀ P : Fin 12, v[P] = if P ∈ ps then podTimed s.now (s.tables.peekParam .refreshPeriod) s.lamps.pods[P] else s.lamps.pods[P] := by
  intro ps
  induction ps with
  | nil => exact fun s => ⟨s.tables, s.lamps.pods, rfl, .refl _, fun _ => rfl⟩
  | cons Q ps ih =>
    intro s
    obtain ⟨t, first, started⟩ := startTimers_eq s Q
    obtain ⟨u, v, rest, reads, records⟩ := ih ((s.withTables t).updPod Q (podTimed s.now (s.tables.peekParam .refreshPeriod)))
    refine ⟨u, v, ?_, first.trans reads, fun P => ?_⟩
    · rw [List.foldl_cons, started, rest]
      rfl
    · rw [records]
      simp only [State.updPod_now, State.withTables_now, State.updPod_tables, State.withTables_tables, first.peekParam, State.updPod_lamps,
        State.withTables_lamps, upd_get]
      by_cases same : Q = P
      · subst same
        simp [podTimed]
      · simp [same, Ne.symm same]

/-! ## The resolution of a load block at rest -/

/-- What a resolution reads after a reset: no mode, no indicate request, and no side lit (R70, R114). -/
def restEnv (now : Time) : LampEnv := ⟨false, false, false, none, false, now⟩

theorem demandOf_restEnv (now : Time) (e : LoadEntry) : demandOf (restEnv now) e 0 = false := by
  cases kind : e.kind <;> cases side : e.side <;> simp [demandOf, kind, side, restEnv, LampEnv.flashing, LampEnv.eitherFlashing]

theorem drivenLevel_restEnv (now : Time) (e : LoadEntry) : drivenLevel (restEnv now) e 0 = 0 := by
  cases kind : e.kind <;> cases side : e.side <;> simp [drivenLevel, kind, side, restEnv, LampEnv.flashing, LampEnv.eitherFlashing]

/-- The record of a load after the resolution of a reset: bound as its entry has it, and dark (R93, R99). -/
def boundAtRest (t : TableStore) (l : Fin 32) : LoadRecord := { LoadRecord.afterReset with binding := (t.load l).2.bind bindingOf }

theorem judged_atRest (now : Time) (e : LoadEntry) :
    judged .afterReset (restEnv now) e = { LoadRecord.afterReset with binding := bindingOf e } := by
  have bound : LoadRecord.afterReset.bind e = { LoadRecord.afterReset with binding := bindingOf e } := by
    unfold LoadRecord.bind
    split
    · next same => rw [same]
    · rfl
  rw [judged, bound, judgeDemand_stands (fun fall => Bool.false_ne_true fall.1)]
  exact congrArg (fun demand => { LoadRecord.afterReset with demand := demand, binding := bindingOf e }) (demandOf_restEnv now e)

theorem currentOf_atRest (kind : LoadKind) (isGated : Bool) : currentOf kind isGated false .afterReset = 0 := by
  unfold currentOf
  split
  · split <;> rfl
  · rfl

/-- A load resolved from its reset values is bound, and dark (R93, R95 to R99). -/
theorem resolve_atRest (now : Time) (e : LoadEntry) :
    LoadRecord.afterReset.resolve (restEnv now) false e = { LoadRecord.afterReset with binding := bindingOf e } := by
  have current : (LoadRecord.afterReset.resolve (restEnv now) false e).current = 0 := by rw [resolve_current, currentOf_atRest]
  have effective : (LoadRecord.afterReset.resolve (restEnv now) false e).effective = 0 := by
    rw [resolve_effective, current, drivenLevel_restEnv, ite_self]
  have lit : (LoadRecord.afterReset.resolve (restEnv now) false e).litSince = none := by
    rw [resolve_litSince, effective]
    rfl
  exact (resolve_eq ..).trans (by rw [current, effective, lit, judged_atRest]; rfl)

theorem resolved_atRest (t : TableStore) (now : Time) (l : Fin 32) :
    ActionChains.resolved t (restEnv now) false l .afterReset = boundAtRest t l := by
  unfold ActionChains.resolved boundAtRest
  cases (t.load l).2 with
  | some e => exact resolve_atRest now e
  | none => rfl

/-- Dark loads merge to level 0 (R101). -/
theorem mergedLevels_dark {v : Vector LoadRecord 32} (dark : ∀ l : Fin 32, (v[l]).effective = 0) (P : Fin 12) :
    mergedLevels v P = Vector.replicate 8 0 := by
  unfold mergedLevels
  refine List.foldlRecOn (motive := fun w => w = Vector.replicate 8 0) _ _ rfl fun w zero l _ => ?_
  subst zero
  split
  · split
    · exact EventChannels.upd_of_fixed (by rw [dark l]; simp [higher])
    · rfl
  · rfl

/-- Where the merged levels are those last commanded, the merge of the pods changes nothing (R101). -/
theorem foldl_mergePod_same {s : State} (same : ∀ P : Fin 12, mergedLevels s.lamps.loads P = (s.lamps.pods[P]).levels) (ps : List (Fin 12)) :
    ps.foldl mergePod s = s :=
  List.foldlRecOn (motive := fun u => u = s) _ _ rfl fun u still P _ => by
    subst still
    exact if_pos (same P)

/-- A load block at rest: every load and every pod at its reset values, and nothing that lights a load (R93, R100). -/
structure AtRest (s : State) : Prop where
  env : s.lampEnv = restEnv s.now
  loads : ∀ l : Fin 32, s.lamps.loads[l] = .afterReset
  levels : ∀ P : Fin 12, (s.lamps.pods[P]).levels = Vector.replicate 8 0

/-- All loads resolved, the pods still to merge (R94). -/
theorem loadsResolved_all (s : State) : ∃ t v, loadsResolved s false (List.finRange 32) = { s with tables := t, lamps := { s.lamps with loads := v } } ∧
    s.tables.Reads t ∧ ∀ l : Fin 32, v[l] = ActionChains.resolved s.tables s.lampEnv false l s.lamps.loads[l] :=
  ⟨_, _, rfl, foldl_rel (R := fun p q : TableStore × Vector LoadRecord 32 => p.1.Reads q.1) (fun _ => .refl _) (fun h k => h.trans k)
      (resolveLoad_reads s.lampEnv false) (List.finRange 32) (s.tables, s.lamps.loads),
    fun l => (ActionChains.foldl_resolveLoad_get s.lampEnv false l (List.finRange 32) (s.tables, s.lamps.loads) (List.nodup_finRange 32)
      (.refl _)).trans (if_pos (List.mem_finRange l))⟩

/-- The resolution of a load block at rest binds the loads and changes nothing else (R93, R101). -/
theorem resolveAll_atRest {s : State} (rest : AtRest s) :
    ∃ t v, resolveAll s = { s with tables := t, lamps := { s.lamps with loads := v } } ∧ s.tables.Reads t ∧
      ∀ l : Fin 32, v[l] = boundAtRest s.tables l := by
  obtain ⟨t, v, resolved, reads, records⟩ := loadsResolved_all s
  have bound (l : Fin 32) : v[l] = boundAtRest s.tables l := by rw [records, rest.env, rest.loads, resolved_atRest]
  refine ⟨t, v, ?_, reads, bound⟩
  rw [resolveAll, resolveLoads_eq, resolved]
  exact foldl_mergePod_same (fun P => (mergedLevels_dark (fun l => congrArg LoadRecord.effective (bound l)) P).trans (rest.levels P).symm) _

/-- The load block's part of a reset, from its reset values (R93, R100). -/
theorem resetLamps_sets {s : State} (env : s.lampEnv = restEnv s.now) (loads : ∀ l : Fin 32, s.lamps.loads[l] = .afterReset)
    (pods : ∀ P : Fin 12, s.lamps.pods[P] = .afterReset) :
    ∃ t v w, resetLamps s = { s with tables := t, lamps := { s.lamps with loads := v, pods := w } } ∧ s.tables.Reads t ∧
      (∀ l : Fin 32, v[l] = boundAtRest s.tables l) ∧
        ∀ P : Fin 12, w[P] = podTimed s.now (s.tables.peekParam .refreshPeriod) .afterReset := by
  obtain ⟨t, w, started, reads, timers⟩ := foldl_startTimers (List.finRange 12) s
  have timers (P : Fin 12) : w[P] = podTimed s.now (s.tables.peekParam .refreshPeriod) .afterReset := by
    rw [timers, if_pos (List.mem_finRange P), pods]
  obtain ⟨u, v, resolved, more, bound⟩ := resolveAll_atRest (s := { s with tables := t, lamps := { s.lamps with pods := w } })
    ⟨env, loads, fun P => by rw [timers]; rfl⟩
  refine ⟨u, v, w, ?_, reads.trans more, fun l => ?_, timers⟩
  · rw [resetLamps, started, resolved]
  · rw [bound, boundAtRest, boundAtRest, reads.load]

/-! ## The whole reset -/

/-- What a resolution reads of the cleared records (R70, R114). -/
theorem clearBlocks_lampEnv (keep : Bool) (s : State) : (clearBlocks keep s).lampEnv = restEnv s.now := by
  have off (m : Fin 16) : (clearBlocks keep s).mode m = false := Vector.getElem_replicate ..
  simp only [State.lampEnv, off]
  rfl

/-- What a reset leaves of the records it clears, and the records its reads set, by the tables as they then stand. -/
theorem resetBlocks_sets (keep : Bool) (s : State) : ∃ t sources channels descriptors loads pods,
    resetBlocks keep s =
      { clearBlocks keep s with
        tables := t
        routes := { (clearBlocks keep s).routes with sources := sources }
        events := { (clearBlocks keep s).events with channels := channels }
        sampler := { (clearBlocks keep s).sampler with descriptors := descriptors }
        lamps := { (clearBlocks keep s).lamps with loads := loads, pods := pods } } ∧
      (∀ a : Fin 64, sources[a] = watching s.now t a .afterReset) ∧ (∀ c : Fin 32, channels[c] = channelOf t c) ∧
      (∀ d : Fin 16, descriptors[d] = timed s.now t d .afterReset) ∧ (∀ l : Fin 32, loads[l] = boundAtRest t l) ∧
      ∀ P : Fin 12, pods[P] = podTimed s.now (t.peekParam .refreshPeriod) .afterReset := by
  obtain ⟨t1, sources, routes, reads1, watches⟩ := resetRoutes_sets (clearBlocks keep s)
  obtain ⟨t2, channels, events, reads2, masks⟩ := resetEvents_sets (resetRoutes (clearBlocks keep s))
  obtain ⟨t3, descriptors, sampler, reads3, stales⟩ := resetSampler_sets (resetEvents (resetRoutes (clearBlocks keep s)))
  obtain ⟨t4, loads, pods, lamps, reads4, bound, timers⟩ := resetLamps_sets (s := resetSampler (resetEvents (resetRoutes (clearBlocks keep s))))
    (by rw [sampler, events, routes]; exact clearBlocks_lampEnv keep s)
    (fun l => by rw [sampler, events, routes]; exact Vector.getElem_replicate ..)
    (fun P => by rw [sampler, events, routes]; exact Vector.getElem_replicate ..)
  rw [routes] at events masks reads2
  rw [routes, events] at sampler stales reads3
  rw [routes, events, sampler] at lamps reads4 bound timers
  have late := reads3.trans reads4
  have read := reads2.trans late
  refine ⟨t4, sources, channels, descriptors, loads, pods, ?_, fun a => ?_, fun c => ?_, fun d => ?_, fun l => ?_, fun P => ?_⟩
  · rw [resetBlocks, routes, events, sampler, lamps]
  · have fixed : (clearBlocks keep s).routes.sources[a] = .afterReset := Vector.getElem_replicate ..
    rw [watches, fixed, (startWatch_sets _).stable (reads1.trans read)]
    rfl
  · rw [masks, channelOf, channelOf, read.event]
  · have fixed : (clearBlocks keep s).sampler.descriptors[d] = .afterReset := Vector.getElem_replicate ..
    refine (stales d).trans ?_
    rw [(startStale_sets s.now).stable late]
    exact congrArg _ fixed
  · rw [bound, boundAtRest, boundAtRest, reads4.load]
  · rw [timers, reads4.peekParam]
    rfl

/-- Every reset sets every block up (R32, R36, R55, R57, R70, R93, R100, R114, R131, R139, R142, R143, R151, R158). -/
theorem resetBlocks_setUp (keep : Bool) (s : State) : (resetBlocks keep s).SetUp := by
  obtain ⟨t, sources, channels, descriptors, loads, pods, reset, watches, masks, stales, bound, timers⟩ := resetBlocks_sets keep s
  rw [reset]
  have portSetUp (onWire : Bool) (c : PortCounters) : (Port.afterReset s.now onWire c).SetUp s.now := ⟨rfl, rfl, rfl, rfl, rfl, rfl, rfl, rfl⟩
  refine ⟨portSetUp _ _, portSetUp _ _, fun a => ?_, masks, rfl, rfl, fun k => Vector.getElem_replicate .., fun m => Vector.getElem_replicate ..,
    rfl, rfl, bound, timers, rfl, rfl, fun d => ?_, rfl, rfl, rfl, rfl, rfl, fun g => Vector.getElem_replicate .., rfl, rfl, rfl⟩
  · show (sources[a]).heard = .unheard ∧ (sources[a]).watch = _
    rw [watches a, watching]
    cases slot : (t.directory a).2 with
    | some e => exact ⟨rfl, rfl⟩
    | none => exact ⟨rfl, rfl⟩
  · refine (stales d).trans ?_
    rw [timed]
    cases entry : (t.descriptor d).2 with
    | some e => rfl
    | none => rfl

end Sys2Proof.Machine.ResetSetUp
end

section
/-! PROOFS. RESTART (R171): the reply queued and waited for, and the restart made at once where the reply is dropped. -/

namespace Sys2Proof.Machine.Restart

open ServiceRequests ResetSetUp

/-! ## The reply -/

/-- With room in the queue the reply DONE is queued and waited for (R171). -/
theorem beginRestart_room {s : State} {p : PortId} (room : (s.port p).queue.length < 8) (f : Frame) :
    beginRestart s p f =
      { s.setPort p
          { s.port p with
            queue := (s.port p).queue ++ [⟨⟨f.src, s.hubAddress, 5, [f.payload.headD 0xFF#8, 0#8]⟩, false, none, true⟩] } with
        service := .restarting } := by
  have queued : ¬8 ≤ (s.port p).queue.length := Nat.not_le.mpr room
  simp only [beginRestart, Port.offerReply, if_pos room, decide_eq_true_eq, if_neg queued]
  rfl

/-- The state in which a restart is made at once: its reply dropped and counted (R27, R171). -/
def replyDropped (s : State) (p : PortId) : State :=
  s.setPort p { s.port p with counters := { (s.port p).counters with serviceDrop := (s.port p).counters.serviceDrop.bump } }

/-- At a full queue the reply is dropped and the restart made at once (R171). -/
theorem beginRestart_full {s : State} {p : PortId} (full : 8 ≤ (s.port p).queue.length) (f : Frame) :
    beginRestart s p f = resetBlocks true (replyDropped s p) := by
  have noRoom : ¬(s.port p).queue.length < 8 := Nat.not_lt.mpr full
  simp only [beginRestart, Port.offerReply, if_neg noRoom, decide_eq_true_eq, if_pos full, replyDropped]

/-! ## The restart -/

/-- Where both pools are free, a release changes nothing. -/
theorem releasePool_free {s : State} {p : PortId} (a : (s.port p).poolA = .free) (b : (s.port p).poolB = .free) : s.releasePool p = s := by
  have same : (s.port p).release = s.port p := by simp only [Port.release, a, b]
  rw [State.releasePool, same, State.setPort_port]

/-- A part set up has released every pool (R32). -/
theorem releasePool_setUp {s : State} (h : s.SetUp) (p : PortId) : s.releasePool p = s := by
  obtain ⟨⟨_, _, _, frontA, frontB, _⟩, ⟨_, _, _, rearA, rearB, _⟩, _⟩ := h
  cases p with
  | front => exact releasePool_free frontA frontB
  | rear => exact releasePool_free rearA rearB

/-- A restart keeps the counters of a port (R31). -/
theorem resetBlocks_portCounters (s : State) (p : PortId) : ((resetBlocks true s).port p).counters = (s.port p).counters := by
  obtain ⟨_, _, _, _, _, _, _, _, _, front, rear, _⟩ := resetBlocks_keeps true s
  generalize resetBlocks true s = t at front rear ⊢
  cases p with
  | front => exact front
  | rear => exact rear

/-- Settles O57: the reply queued, or dropped with the restart made at once, which sets every block up and keeps the counters. -/
theorem restartWaitsForItsReply : Obligations.RestartWaitsForItsReply := by
  intro dt p s f serves idle payload
  have reads : decodeRequest f.payload = some .restart := by rw [payload]; rfl
  have taken := execRestart_asked dt serves reads idle
  have port := State.port_elapse dt s p
  refine ⟨fun room => ?_, fun full => ?_⟩
  · refine taken.trans (congrArg Host.Outcome.next ?_)
    rw [beginRestart_room (by rwa [port]), payload]
    cases p <;> rfl
  · rw [beginRestart_full (by rwa [port]), releasePool_setUp (resetBlocks_setUp true _)] at taken
    obtain ⟨_, _, _, power, straps, nv, _, _, read, _, _, miss, report, lost, fault, slots⟩ := resetBlocks_keeps true (replyDropped (s.elapse dt) p)
    have counters := resetBlocks_portCounters (replyDropped (s.elapse dt) p)
    have setUp := resetBlocks_setUp true (replyDropped (s.elapse dt) p)
    generalize resetBlocks true (replyDropped (s.elapse dt) p) = t at taken setUp power straps nv read miss report lost fault slots counters
    have dropped : ((replyDropped (s.elapse dt) p).port p).counters =
        { (s.port p).counters with serviceDrop := (s.port p).counters.serviceDrop.bump } := by rw [replyDropped, State.port_setPort, port]
    have other : (replyDropped (s.elapse dt) p).port p.other = s.port p.other := by rw [replyDropped, State.port_setPort_other, State.port_elapse]
    simp only [replyDropped, State.setPort_power, State.setPort_straps, State.setPort_nv, State.setPort_tables, State.setPort_routes,
      State.setPort_events, State.setPort_engine] at power straps nv read miss report lost fault slots
    exact ⟨t, taken, setUp, power.trans serves.1, straps, nv, read.1, (counters p).trans dropped,
      (counters p.other).trans (congrArg Port.counters other), miss, report, lost, fault, slots⟩

end Sys2Proof.Machine.Restart
end

section
/-! PROOFS. A step (95_what_each_step_holds.md): the front command's effect on the queue's rest, and its completion where every command is well formed. -/

namespace Sys2Proof.Machine.StepCompletes

open EventChannels

/-! ## A step of the queue -/

/-- With an empty queue the part idles (log 1). -/
theorem step_empty {s : State} (empty : s.pending = []) : step s = .next s := by
  simp only [step, empty]

/-- With a command in front, a step is that command's effect on the state with the queue's rest. -/
theorem step_front {s : State} {c : Instr} {rest : List Instr} (front : s.pending = c :: rest) :
    step s = exec c { s with pending := rest } := by
  simp only [step, front]

/-- Settles O1, by the two forms of the queue. -/
theorem stepRunsFrontCommand : Obligations.StepRunsFrontCommand :=
  ⟨fun _ s => step_front (rest := s.pending) rfl, fun _ empty => step_empty empty⟩

/-! ## Completion -/

/-- A command answers a next state. -/
abbrev Completes (r : Result) : Prop := ∃ t, r = .next t

/-- A command of the blocks completes, in a hold or out of it (log 24). -/
theorem exec_ofBlocks_completes {c : Instr} (h : OfBlocks c) (s : State) : Completes (exec c s) := by
  obtain ⟨f, e⟩ := exec_ofBlocks_live h
  rw [e, live_next]
  exact ⟨_, rfl⟩

/-- A disturbance completes exactly where the area has the word it names: the model's one fault is raised nowhere else (R1, log 25). -/
theorem execBitsDisturbedInStorage_completes_iff (dt : Time) (area : Area) (index : Nat) (data : Word16) (s : State) :
    Completes (execBitsDisturbedInStorage dt area index data s) ↔ index < area.words := by
  by_cases inside : index < area.words
  · exact iff_of_true ⟨_, if_pos inside⟩ inside
  · have faults : execBitsDisturbedInStorage dt area index data s = .fault .noSuchWord := if_neg inside
    refine iff_of_false (fun ⟨t, completes⟩ => ?_) inside
    rw [faults] at completes
    cases completes

/-- A well-formed command completes from every state: the blocks' commands by `live`, the events of the feed and of the wires because each
answers a next state on or off its occasion (log 4), and a disturbance because its word exists. -/
theorem exec_completes {c : Instr} (wellFormed : c.wellFormed = true) (s : State) : Completes (exec c s) := by
  cases c with
  | bitsDisturbedInStorage dt area index data =>
    exact (execBitsDisturbedInStorage_completes_iff dt area index data s).mpr (of_decide_eq_true wellFormed)
  | powerOn | brownOut | feedFellBelow2V5 | ignitionInputChange | byteReceived => exact ⟨_, rfl⟩
  | _ => exact exec_ofBlocks_completes (by trivial) s

/-- Settles O2, by the queue: empty, the part idles; otherwise the well-formed command in front completes. -/
theorem wellFormedCommandsComplete : Obligations.WellFormedCommandsComplete := by
  intro s wellFormed
  cases queue : s.pending with
  | nil => exact ⟨s, step_empty queue⟩
  | cons c rest =>
    have front : c.wellFormed = true := wellFormed c (queue ▸ List.mem_cons_self)
    rw [step_front queue]
    exact exec_completes front _

end Sys2Proof.Machine.StepCompletes
end

section
/-! PROOFS. The standing conditions of the ports (R19, R22, R23, R25), of the memories (R8, log 11) and of supervision (R49, R104): one relation between
two states says that each of them is kept and which words of the store can have other bits, every operation is shown to keep to it once, and the
four statements about every step are read off it. -/

namespace Sys2Proof.Machine.StandingOrder

/-! ## What is kept -/

/-- A port in order: its queue, its pools and its frame in progress (R19, R22, R23, R25). -/
structure PortOrder (q : Port) : Prop where
  queue : QueueWf q.queue
  pools : q.PoolsWf
  reception : q.reception.Wf

/-- Sources and pods in order: no timer runs for a SILENT one, and a report timer for every other pod (R49, R104). -/
structure Supervised (s : State) : Prop where
  sources : ∀ a : Fin 64, (s.routes.sources[a]).Wf
  pods : ∀ P : Fin 12, (s.lamps.pods[P]).Wf

/-- From the first state to the second every standing condition is kept, and only the addresses of `written` can hold other data or parity
bits (R8). -/
structure Kept (written : Nat → Prop) (s u : State) : Prop where
  ports : ∀ p, PortOrder (s.port p) → PortOrder (u.port p)
  memory : s.MemoryWf → u.MemoryWf
  supervision : Supervised s → Supervised u
  bits : ∀ a, ¬written a → (u.tables.word a).data = (s.tables.word a).data ∧ (u.tables.word a).parity = (s.tables.word a).parity

variable {w : Nat → Prop}

theorem Kept.refl (s : State) : Kept w s s := ⟨fun _ => id, id, id, fun _ _ => ⟨rfl, rfl⟩⟩

theorem Kept.trans {s u v : State} (h : Kept w s u) (k : Kept w u v) : Kept w s v where
  ports p := k.ports p ∘ h.ports p
  memory := k.memory ∘ h.memory
  supervision := k.supervision ∘ h.supervision
  bits a out := ⟨(k.bits a out).1.trans (h.bits a out).1, (k.bits a out).2.trans (h.bits a out).2⟩

/-- A change kept to behind another: the later one, which names the state between, comes first. -/
theorem Kept.after {s u v : State} (k : Kept w u v) (h : Kept w s u) : Kept w s v := h.trans k

theorem Kept.ite {c : Prop} [Decidable c] {s u v : State} (hu : Kept w s u) (hv : Kept w s v) : Kept w s (if c then u else v) := by
  split
  · exact hu
  · exact hv

/-- What the standing conditions speak of beside the table store: ports, NV image, service engine, sources and pods. -/
def records (s : State) : Port × Port × List (Nat × Word16) × ServiceState × Vector SourceRecord 64 × Vector PodRecord 12 :=
  (s.front, s.rear, s.nv, s.service, s.routes.sources, s.lamps.pods)

/-- A change of the table store alone. -/
theorem Kept.of_tables {s u : State} (same : records u = records s) (wf : s.tables.Wf → u.tables.Wf)
    (bits : ∀ a, ¬w a → (u.tables.word a).data = (s.tables.word a).data ∧ (u.tables.word a).parity = (s.tables.word a).parity) : Kept w s u := by
  obtain ⟨front, rear, nv, service, sources, pods⟩ : u.front = s.front ∧ u.rear = s.rear ∧ u.nv = s.nv ∧ u.service = s.service ∧
      u.routes.sources = s.routes.sources ∧ u.lamps.pods = s.lamps.pods := by simpa only [records, Prod.mk.injEq] using same
  refine ⟨fun p => ?_, fun ⟨store, image, flight⟩ => ⟨wf store, by rwa [nv], by rwa [service]⟩, fun h => ⟨?_, ?_⟩, bits⟩
  · cases p with
    | front => rw [State.port, State.port, front]; exact id
    | rear => rw [State.port, State.port, rear]; exact id
  · rw [sources]; exact h.sources
  · rw [pods]; exact h.pods

/-- Block reads (R10). -/
theorem Kept.of_reads {s u : State} (same : records u = records s) (reads : s.tables.Reads u.tables) : Kept w s u :=
  .of_tables same reads.2 fun a _ => ⟨(reads.1.2.1 a).1, (reads.1.2.1 a).2.1⟩

/-- A change of which the standing conditions do not speak. -/
theorem Kept.of_same {s u : State} (same : records u = records s) (tables : u.tables = s.tables) : Kept w s u :=
  .of_reads same (by rw [tables]; exact .refl _)

/-! ## The operations on one record -/

theorem Kept.elapse (dt : Time) (s : State) : Kept w s (s.elapse dt) := .of_same rfl rfl

theorem Kept.withTables {s : State} {t : TableStore} (h : s.tables.Reads t) : Kept w s (s.withTables t) := .of_reads rfl h

/-- A port but the one rewritten stands. -/
theorem port_setPort_ne (s : State) {p r : PortId} (q : Port) (h : r ≠ p) : (s.setPort p q).port r = s.port r := by
  have other : r = p.other := by
    cases p with
    | front => cases r with
      | front => exact absurd rfl h
      | rear => rfl
    | rear => cases r with
      | front => rfl
      | rear => exact absurd rfl h
  rw [other, State.port_setPort_other]

/-- A port rewritten to one in order. -/
theorem Kept.setPort {s : State} {p : PortId} {q : Port} (h : PortOrder (s.port p) → PortOrder q) : Kept w s (s.setPort p q) := by
  refine ⟨fun r => ?_, by cases p <;> exact id, by cases p <;> exact fun k => ⟨k.sources, k.pods⟩, fun a _ => ?_⟩
  · by_cases here : r = p
    · subst here
      rwa [State.port_setPort]
    · rw [port_setPort_ne _ _ here]
      exact id
  · rw [State.setPort_tables]
    exact ⟨rfl, rfl⟩

/-- A port rewritten in what its order does not speak of. -/
theorem Kept.setPort_same {s : State} {p : PortId} {q : Port} (queue : q.queue = (s.port p).queue) (poolA : q.poolA = (s.port p).poolA)
    (poolB : q.poolB = (s.port p).poolB) (reception : q.reception = (s.port p).reception) : Kept w s (s.setPort p q) :=
  .setPort fun h => ⟨by rw [queue]; exact h.queue, by rw [Port.PoolsWf, poolA, poolB]; exact h.pools, by rw [reception]; exact h.reception⟩

/-- A port rewritten in its queue, and in what its order does not speak of. -/
theorem Kept.setPort_queue {s : State} {p : PortId} {q : Port} (queue : QueueWf (s.port p).queue → QueueWf q.queue)
    (poolA : q.poolA = (s.port p).poolA) (poolB : q.poolB = (s.port p).poolB) (reception : q.reception = (s.port p).reception) :
    Kept w s (s.setPort p q) :=
  .setPort fun h => ⟨queue h.queue, by rw [Port.PoolsWf, poolA, poolB]; exact h.pools, by rw [reception]; exact h.reception⟩

theorem Kept.updPod (s : State) (P : Fin 12) {f : PodRecord → PodRecord} (h : ∀ r : PodRecord, r.Wf → (f r).Wf) : Kept w s (s.updPod P f) := by
  refine ⟨fun p => ?_, id, fun k => ⟨k.sources, fun Q => ?_⟩, fun _ _ => ⟨rfl, rfl⟩⟩
  · rw [State.port_updPod]
    exact id
  · rw [State.updPod_lamps, upd_get]
    split
    · exact h _ (k.pods Q)
    · exact k.pods Q

theorem Kept.updSource (s : State) (a : Fin 64) {f : SourceRecord → SourceRecord} (h : ∀ r : SourceRecord, r.Wf → (f r).Wf) :
    Kept w s (s.updSource a f) := by
  refine ⟨fun p => ?_, id, fun k => ⟨fun b => ?_, k.pods⟩, fun _ _ => ⟨rfl, rfl⟩⟩
  · rw [State.port_updSource]
    exact id
  · rw [State.updSource_routes, upd_get]
    split
    · exact h _ (k.sources b)
    · exact k.sources b

/-! ## The operations that touch none of the records -/

theorem Kept.of_events {s u : State} (h : TouchesEvents s u) : Kept w s u := by
  obtain ⟨t, e, rfl, reads, _⟩ := h
  exact .of_reads rfl reads

theorem Kept.of_samples {s u : State} (h : TouchesSamples s u) : Kept w s u := by
  obtain ⟨t, e, v, g, rfl, reads, _⟩ := h
  exact .of_reads rfl reads

theorem Kept.of_gauges {s u : State} (h : TouchesGauges s u) : Kept w s u := by
  obtain ⟨t, g, rfl, reads⟩ := h
  exact .of_reads rfl reads

theorem Kept.of_flasher {s u : State} (h : TouchesFlasher s u) : Kept w s u := by
  obtain ⟨t, f, rfl, reads⟩ := h
  exact .of_reads rfl reads

/-! ## Lamps -/

/-- A pod's dirty mark rewritten. -/
theorem Kept.markPod (s : State) (P : Fin 12) (b : Bool) : Kept w s (s.updPod P fun r => { r with dirty := b }) := .updPod s P fun _ h => h

/-- A frame queued by coalescing (R28). -/
theorem Kept.coalesced {s : State} {p : PortId} {P : Fin 12} {f : Frame} {q : Port} (h : (s.port p).coalesce P f = some q) :
    Kept w s (s.setPort p q) := by
  have only := Port.coalesce_queue h
  exact .setPort_queue (fun k => Port.coalesce_queueWf k h) (by rw [only]) (by rw [only]) (by rw [only])

theorem offerLampcmd_kept (s : State) (P : Fin 12) (e : PodEntry) : Kept w s (offerLampcmd s P e) := by
  unfold offerLampcmd
  split
  · next q coalesced => exact (Kept.coalesced coalesced).trans (.markPod _ P false)
  · exact .markPod s P true

theorem produceLampcmd_kept (s : State) (P : Fin 12) : Kept w s (produceLampcmd s P) := by
  have read : Kept w s (s.withTables (s.tables.pod P).1) := .withTables (s.tables.pod_reads P)
  unfold produceLampcmd
  simp only
  split
  · exact read.trans (.ite (.markPod _ P false) (offerLampcmd_kept _ P _))
  · exact read.trans (.markPod _ P false)

theorem mergePod_kept (s : State) (P : Fin 12) : Kept w s (mergePod s P) := by
  unfold mergePod
  simp only
  split
  · exact .refl s
  · exact (produceLampcmd_kept _ P).after (.updPod s P fun _ h => h)

theorem resolveLoads_kept (s : State) (fade : Bool) (ls : List (Fin 32)) : Kept w s (resolveLoads s fade ls) := by
  have reads := foldl_rel (R := fun p q : TableStore × Vector LoadRecord 32 => p.1.Reads q.1) (fun _ => .refl _) (fun h k => h.trans k)
    (resolveLoad_reads s.lampEnv fade) ls (s.tables, s.lamps.loads)
  exact Kept.after (foldl_rel Kept.refl Kept.trans mergePod_kept _ _) (.of_reads rfl reads)

theorem resolveAll_kept (s : State) : Kept w s (resolveAll s) := resolveLoads_kept s false _

theorem refillFrom_kept (p : PortId) : ∀ (ps : List (Fin 12)) (s : State), Kept w s (refillFrom p ps s) := by
  intro ps
  induction ps with
  | nil => exact .refl
  | cons P ps ih =>
    intro s
    have read : Kept w s (s.withTables (s.tables.pod P).1) := .withTables (s.tables.pod_reads P)
    simp only [refillFrom]
    split
    · split
      · exact (read.trans (.markPod _ P false)).trans (ih _)
      · split
        · exact read.trans (ih _)
        · split
          · exact (read.trans (.markPod _ P false)).trans (ih _)
          · split
            · next coalesced => exact ((read.trans (.coalesced coalesced)).trans (.markPod _ P false)).trans (ih _)
            · exact read
    · exact ih s

theorem settleRefill_kept (s : State) (p : PortId) : Kept w s (settleRefill s p) :=
  (refillFrom_kept p _ _).after (.setPort_same rfl rfl rfl rfl)

theorem startRefresh_kept (s : State) (P : Fin 12) : Kept w s (startRefresh s P) :=
  Kept.trans (.withTables (s.tables.param_reads _)) (.updPod _ P fun _ h => h)

/-- A pod made LIVE has its report timer started with it (R46, R104). -/
theorem startReport_live_kept (s : State) (P : Fin 12) : Kept w s (startReport (s.updPod P fun r => { r with state := .live }) P) := by
  have both : startReport (s.updPod P fun r => { r with state := .live }) P =
      (s.withTables (s.tables.param .refreshPeriod).1).updPod P fun r =>
        { r with state := .live, report := some (s.now + 3 * (s.tables.param .refreshPeriod).2 * Config.ms500) } := by
    simp only [startReport, State.updPod, State.withTables, EventChannels.upd_upd]
  rw [both]
  exact Kept.trans (.withTables (s.tables.param_reads _)) (.updPod _ P fun _ _ => iff_of_false nofun nofun)

theorem takeReport_kept (s : State) (P : Fin 12) (payload : List Byte) : Kept w s (takeReport s P payload) := by
  have started := startReport_live_kept (w := w) s P
  unfold takeReport
  simp only
  generalize startReport _ P = u at started ⊢
  have reads := foldl_rel (R := fun p q : TableStore × Vector LoadRecord 32 × List (Fin 32) => p.1.Reads q.1) (fun _ => .refl _)
    (fun h k => h.trans k) (judgeLoad_reads u.now P payload) (List.finRange 32) (u.tables, u.lamps.loads, [])
  generalize (List.finRange 32).foldl (judgeLoad u.now P payload) (u.tables, u.lamps.loads, []) = judged at reads ⊢
  have taken : Kept w s { u with tables := judged.1, lamps := { u.lamps with loads := judged.2.1 } } := started.trans (.of_reads rfl reads)
  split
  · exact taken
  · exact taken.trans (resolveLoads_kept _ _ _)

/-! ## The route engine -/

theorem hear_kept (s : State) (src : Fin 64) (e : DirectoryEntry) : Kept w s (hear s src e) := by
  have heard : Kept w s (s.updSource src fun _ => ⟨.heard, watchDeadline s.now e.watch⟩) := .updSource s src fun _ _ => nofun
  exact .ite (heard.trans (.of_events (reportTo_touches _ _ _))) heard

theorem routeReport_kept (s : State) (f : Frame) : Kept w s (routeReport s f) := by
  have read : Kept w s (s.withTables (matchPod f.src (List.finRange 12) s.tables).1) := .withTables (matchPod_reads _ _ _)
  have miss : Kept w s (s.withTables (matchPod f.src (List.finRange 12) s.tables).1).countReportError := read.trans (.of_same rfl rfl)
  unfold routeReport
  simp only
  split
  · exact .ite (read.trans (takeReport_kept _ _ _)) miss
  · exact miss

/-- A copy offered to a queue (R27). -/
theorem offerCopy_kept (s : State) (p : PortId) (f : Frame) : Kept w s (s.setPort p ((s.port p).offerCopy f)) := by
  refine .setPort_queue (Port.offerCopy_queueWf _ f) ?_ ?_ ?_
  all_goals
    unfold Port.offerCopy
    split <;> rfl

theorem performRoute_kept (s : State) (p : PortId) (e : RouteEntry) (f : Frame) : Kept w s (performRoute s p e f) := by
  have also {u : State} (h : Kept w s u) : Kept w s (if e.alsoForward then forward u p e f else u) := .ite (h.trans (offerCopy_kept _ _ _)) h
  unfold performRoute
  simp only
  split
  · exact also (.of_events (routeSwitch_touches s e f.payload))
  · exact also (.of_samples (routeSender_touches s e f.payload))
  · exact also (routeReport_kept s f)
  · exact offerCopy_kept s p.other _
  · exact .refl s

theorem walkRoute_kept (s : State) (p : PortId) (e : DirectoryEntry) (f : Frame) : Kept w s (walkRoute s p e f) := by
  unfold walkRoute
  split
  · exact .of_same rfl rfl
  · next i _ =>
    have read : Kept w s (s.withTables (findRoute f.kind 8 i.val s.tables).1) := .withTables (findRoute_reads _ _ _ _)
    simp only
    split
    · exact read.trans (performRoute_kept _ p _ f)
    · exact read.trans (.of_same rfl rfl)
    · exact read

theorem routeFrame_kept (s : State) (p : PortId) (f : Frame) : Kept w s (routeFrame s p f) := by
  have read : Kept w s (s.withTables (s.tables.directory f.src).1) := .withTables (s.tables.directory_reads _)
  unfold routeFrame
  simp only
  split
  · exact read
  · exact .ite ((read.trans (hear_kept _ _ _)).trans (walkRoute_kept _ p _ f)) (read.trans (.of_same rfl rfl))

/-- A pool released (R22, R23). -/
theorem releasePool_kept (s : State) (p : PortId) : Kept w s (s.releasePool p) := by
  have only := Port.release_eq (s.port p)
  exact .setPort fun h => ⟨by rw [only]; exact h.queue, Port.release_poolsWf _ h.pools, by rw [only]; exact h.reception⟩

/-- The expiry of a watch timer: a source that falls SILENT has its timer stopped (R49). -/
theorem expireWatch_kept (s : State) (src : Fin 64) : Kept w s (expireWatch s src) := by
  have stopped : Kept w s ((s.withTables (s.tables.directory src).1).updSource src fun x => { x with watch := none }) :=
    Kept.trans (.withTables (s.tables.directory_reads _)) (.updSource _ src fun _ _ _ => rfl)
  have fallen : Kept w s (((s.withTables (s.tables.directory src).1).updSource src fun x => { x with watch := none }).updSource src
      fun x => { x with heard := .silent }) := by
    refine Kept.trans (.withTables (s.tables.directory_reads src)) ?_
    simp only [State.updSource, EventChannels.upd_upd]
    exact .updSource _ src fun _ _ _ => rfl
  unfold expireWatch
  simp only
  split
  · exact fallen
  · exact .ite stopped (fallen.trans (.of_events (reportTo_touches _ _ _)))

/-! ## The action engine -/

theorem walk_kept (ch : Chain) (n : Nat) (i : Fin 256) (s : State) : Kept w s (walk ch n i s) := by
  obtain ⟨_, _, _, _, walked, reads, _⟩ := walk_walk ch n i s
  rw [walked]
  exact .of_reads rfl reads

theorem commitGroup_kept (b s : State) : Kept w s (commitGroup b s) := by
  have zeroed : Kept w s (if b.ignition && !s.ignition then { s with gauges := s.gauges.zeroed } else s) := .ite (.of_same rfl rfl) (.refl s)
  have settled := zeroed.trans (.of_flasher (settleFlasher_touches _))
  exact .ite (settled.trans (resolveAll_kept _)) settled

theorem runWalk_kept (ch : Chain) (i : Fin 256) (s : State) : Kept w s (runWalk ch i s) :=
  ((walk_kept ch 32 i s).trans (commitGroup_kept s _)).trans (.of_same rfl rfl)

theorem cancelChain_kept (s : State) (c : Fin 32) : Kept w s (cancelChain s c) := by
  rw [ChainSlots.cancelChain_eq]
  exact .of_same rfl rfl

theorem takeChannel_kept (s : State) (c : Fin 32) (e : EventEntry) (edge : Edge) : Kept w s (takeChannel s c e edge) := by
  have cleared : Kept w s (s.updChannel c fun x => { x with pending := none }) := .of_same rfl rfl
  have ready : Kept w s (if (s.events.channels[c]).inService then cancelChain (s.updChannel c fun x => { x with pending := none }) c
      else s.updChannel c fun x => { x with pending := none }) := .ite (cleared.trans (cancelChain_kept _ c)) cleared
  unfold takeChannel
  simp only
  split
  · exact ready.trans (runWalk_kept _ _ _)
  · exact ready.trans (.of_same rfl rfl)

theorem chooseFrom_kept : ∀ (cs : List (Fin 32)) (s : State), Kept w s (chooseFrom cs s) := by
  intro cs
  induction cs with
  | nil => exact fun _ => .of_same rfl rfl
  | cons c cs ih =>
    intro s
    have read : Kept w s (s.withTables (s.tables.event c).1) := .withTables (s.tables.event_reads c)
    simp only [chooseFrom]
    split
    · exact ih s
    · split
      · exact ih s
      · split
        · exact (ih _).after (read.trans (.of_same rfl rfl))
        · exact .ite (read.trans (takeChannel_kept _ c _ _)) (read.trans (ih _))

theorem resumeSlot_kept (s : State) (k : Fin 4) : Kept w s (resumeSlot s k) := by
  unfold resumeSlot
  simp only
  split
  · exact .of_same rfl rfl
  · exact runWalk_kept _ _ s

/-! ## The resets -/

/-- A port set up is in order (R32). -/
theorem setUp_portOrder {q : Port} {now : Time} (h : q.SetUp now) : PortOrder q := by
  obtain ⟨_, _, reception, poolA, poolB, queue, _⟩ := h
  refine ⟨by rw [queue]; exact ⟨Nat.zero_le 8, nofun, fun _ => Nat.zero_le 1⟩, by rw [Port.PoolsWf, poolA, poolB]; trivial, by rw [reception]; rfl⟩

/-- A part set up has its sources and pods in order (R36, R100). -/
theorem setUp_supervised {s : State} (h : s.SetUp) : Supervised s := by
  obtain ⟨_, _, sources, _, _, _, _, _, _, _, _, pods, _⟩ := h
  exact ⟨fun a silent => absurd ((sources a).1.symm.trans silent) nofun, fun P => by rw [pods P]; exact iff_of_false nofun nofun⟩

theorem resetBlocks_kept (keep : Bool) (s : State) : Kept w s (resetBlocks keep s) := by
  have setUp := ResetSetUp.resetBlocks_setUp keep s
  obtain ⟨_, _, _, _, _, nv, service, _, reads, _⟩ := resetBlocks_keeps keep s
  generalize resetBlocks keep s = u at setUp nv service reads ⊢
  refine ⟨fun p _ => ?_, fun ⟨store, image, _⟩ => ⟨reads.2 store, by rwa [nv], by rw [service]; rfl⟩, fun _ => setUp_supervised setUp,
    fun a _ => ⟨(reads.1.2.1 a).1, (reads.1.2.1 a).2.1⟩⟩
  cases p with
  | front => exact setUp_portOrder setUp.1
  | rear => exact setUp_portOrder setUp.2.1

/-! ## The line -/

/-- A byte added to the frame in progress (R19, log 27). -/
theorem add_wf {r : Reception} (h : r.Wf) (value : Byte) (stop : Bool) : (r.add value stop).Wf := by
  simp only [Reception.Wf, Reception.add] at h ⊢
  split
  · simp only [List.length_append, List.length_singleton]
    omega
  · omega

theorem byteOf_portOrder {q : Port} (h : PortOrder q) (now : Time) (edge : ByteEdge) : PortOrder (q.byteOf now edge) := by
  cases edge with
  | begins =>
    simp only [Port.byteOf, Port.byteBegins]
    split
    · split
      · exact ⟨h.queue, h.pools, rfl⟩
      · exact ⟨h.queue, h.pools, h.reception⟩
    · exact ⟨h.queue, h.pools, h.reception⟩
    · exact ⟨h.queue, h.pools, h.reception⟩
    · exact h
  | ends value stop =>
    simp only [Port.byteOf, Port.byteEnds]
    split
    · exact ⟨h.queue, h.pools, add_wf h.reception value stop⟩
    · exact ⟨h.queue, h.pools, h.reception⟩
    · exact ⟨h.queue, h.pools, h.reception⟩
    · exact h

/-- A good frame placed and handed over (R22, R23). -/
theorem placed_portOrder {q : Port} (h : PortOrder q) (x : HeldFrame) : PortOrder (q.place x).handOver := by
  have placed := Port.place_eq q x
  have handed := Port.handOver_eq (q.place x)
  exact ⟨by rw [handed, placed]; exact h.queue, Port.place_poolsWf q x h.pools, by rw [handed, placed]; exact h.reception⟩

theorem judgeFrame_kept (s : State) (p : PortId) (r : Reception) : Kept w s (judgeFrame s p r) := by
  have accepted : Kept w s (acceptFrame s p r.frame) := by
    have reads := (s.tables.param_reads .group1).trans (TableStore.param_reads _ .group2)
    exact (Kept.withTables reads).trans (.setPort fun h => placed_portOrder (by rwa [State.port_withTables] at h) _)
  exact .ite (.setPort_same rfl rfl rfl rfl) (.ite accepted (.setPort_same rfl rfl rfl rfl))

theorem markDirty_kept (s : State) (pod : Option (Fin 12)) : Kept w s (markDirty s pod) := by
  cases pod with
  | some P => exact .markPod s P true
  | none => exact .refl s

theorem afterFreeing_kept (e : QueueEntry) (s : State) : Kept w s (afterFreeing e s) := .ite (resetBlocks_kept true s) (.refl s)

theorem sendHead_kept {refilled : State → State} (h : ∀ u, Kept w u (refilled u)) (s : State) (p : PortId) : Kept w s (sendHead s p refilled) := by
  unfold sendHead
  simp only
  split
  · next queue => exact (afterFreeing_kept _ _).after ((h _).after (.setPort_queue (fun k => QueueWf.tail (by rwa [queue] at k)) rfl rfl rfl))
  · exact .refl s

theorem abandonHead_kept {refilled : State → State} (h : ∀ u, Kept w u (refilled u)) (s : State) (p : PortId) :
    Kept w s (abandonHead s p refilled) := by
  unfold abandonHead
  simp only
  split
  · next queue =>
    exact (afterFreeing_kept _ _).after ((h _).after ((markDirty_kept _ _).after
      (.setPort_queue (fun k => QueueWf.tail (by rwa [queue] at k)) rfl rfl rfl)))
  · exact .refl s

theorem owedRefill_kept (s : State) (p : PortId) : Kept w s (owedRefill s p) := .ite (settleRefill_kept s p) (.refl s)

theorem setRefillOwed_kept (s : State) (p : PortId) (b : Bool) : Kept w s (s.setRefillOwed p b) := .setPort_same rfl rfl rfl rfl

/-! ## The services -/

/-- A reply offered to a queue (R27). -/
theorem offerReply_kept (s : State) (p : PortId) (f : Frame) (b : Bool) : Kept w s (s.setPort p ((s.port p).offerReply f b)) := by
  refine .setPort_queue (Port.offerReply_queueWf _ f b) ?_ ?_ ?_
  all_goals
    unfold Port.offerReply
    split <;> rfl

theorem answer_kept (s : State) (p : PortId) (f : Frame) (status : Status) (data : List Byte) : Kept w s (answer s p f status data) :=
  offerReply_kept s p _ false

/-- A request taken: what performs it is asked of an idle engine alone (R159). -/
theorem request_kept {s : State} {p : PortId} {f : Frame} {g : State → State} (h : s.service = .idle → Kept w s (g s)) :
    Kept w s ((unlessBusy s p f g).releasePool p) := by
  refine Kept.trans ?_ (releasePool_kept _ p)
  unfold unlessBusy
  split
  · next idle => exact h idle
  · exact answer_kept s p f _ _

theorem readTable_kept (s : State) (p : PortId) (f : Frame) (area : Byte) (index count : Nat) : Kept w s (readTable s p f area index count) := by
  unfold readTable
  split
  · exact .ite (answer_kept s p f _ _) (answer_kept s p f _ _)
  · exact answer_kept s p f _ _

theorem readCounters_kept (s : State) (p : PortId) (f : Frame) (group clear : Nat) : Kept w s (readCounters s p f group clear) := by
  have group_kept (g : PortId) (b : Bool) : Kept w s (answerPortGroup s p f g b) := by
    have cleared : Kept w s (if b then clearPortCounters s g else s) := .ite (.setPort_same rfl rfl rfl rfl) (.refl s)
    exact (cleared.trans (answer_kept _ p f _ _)).trans (answer_kept _ p f _ _)
  have cleared : Kept w s (clearDeviceCounters s) := .of_tables rfl id fun _ _ => ⟨rfl, rfl⟩
  unfold readCounters
  split
  · exact answer_kept s p f _ _
  · split
    · exact group_kept .front _
    · exact group_kept .rear _
    · exact Kept.trans (.ite cleared (.refl s)) (answer_kept _ p f _ _)
    · exact answer_kept s p f _ _

theorem clearLatches_kept (s : State) (ls : List (Fin 32)) : Kept w s (clearLatches s ls) :=
  (resolveLoads_kept _ false ls).after (.of_same rfl rfl)

/-- A STORE accepted: a failing word is marked, and the image of one in flight is in canonical form (R169). -/
theorem beginStore_kept (s : State) (p : PortId) (f : Frame) : Kept w s (beginStore s p f) := by
  unfold beginStore
  split
  · next t read =>
    have reads : s.tables.Reads t := by
      have := s.tables.readBlock_reads 0 tableWords (Nat.le_refl _)
      rwa [read] at this
    exact (Kept.withTables reads).trans (answer_kept _ p f _ _)
  · exact ⟨fun _ => id, fun ⟨store, image, _⟩ => ⟨store, image, Memory.ofFn_wf _ _ _⟩, fun h => ⟨h.sources, h.pods⟩, fun _ _ => ⟨rfl, rfl⟩⟩

theorem beginRestart_kept (s : State) (p : PortId) (f : Frame) : Kept w s (beginRestart s p f) := by
  have queued := offerReply_kept (w := w) s p (replyFrame s f.src (requestCode f) .done []) true
  exact .ite (queued.trans (resetBlocks_kept true _))
    (queued.trans ⟨fun _ => id, fun ⟨store, image, _⟩ => ⟨store, image, rfl⟩, fun h => ⟨h.sources, h.pods⟩, fun _ _ => ⟨rfl, rfl⟩⟩)

/-- The NV image replaced by one in canonical form, no STORE being in flight from then on (R170). -/
theorem Kept.programmed {s u : State} (nv : Memory.wf nvUnlisted nvWords u.nv = true) (service : u.service = .idle) (front : u.front = s.front)
    (rear : u.rear = s.rear) (routes : u.routes = s.routes) (lamps : u.lamps = s.lamps) (cells : u.tables.cells = s.tables.cells) : Kept w s u := by
  refine ⟨fun p => ?_, fun ⟨store, _, _⟩ => ⟨by rwa [cells], nv, by rw [service]; rfl⟩, fun h => ⟨by rw [routes]; exact h.sources, by rw [lamps]; exact h.pods⟩,
    fun a _ => ?_⟩
  · cases p with
    | front => rw [State.port, State.port, front]; exact id
    | rear => rw [State.port, State.port, rear]; exact id
  · simp only [TableStore.word, cells, and_self]

theorem brokenImage_wf (draw : Nat) : Memory.wf nvUnlisted nvWords (brokenImage draw) = true := Memory.ofFn_wf _ _ _

theorem abandonStore_kept (s : State) : Kept w s (abandonStore s) := by
  unfold abandonStore
  split
  · have free := brokenImage_wf s.draws
    generalize brokenImage s.draws = image at free ⊢
    exact .programmed free rfl rfl rfl rfl rfl rfl
  · exact .refl s
  · exact .refl s

/-- The deferred reply of a STORE, its image programmed (R170). -/
theorem answerStore_kept (s : State) (r : LoomAddr) (p : PortId) (status : Status) : Kept w s (answerStore s r p status) := offerReply_kept s p _ false

/-- A STORE in flight ends: with its own image, in canonical form, or with free words (R170, log 9). -/
theorem storeEnds_kept (s : State) (verified : Bool) {r : LoomAddr} {p : PortId} {image : List (Nat × Word16)} (h : s.service = .storing r p image) :
    Kept w s
      (if verified then answerStore { s with service := .idle, nv := image, tables := { s.tables with source := .nv } } r p .done
      else answerStore { s with service := .idle, nv := brokenImage s.draws, draws := s.draws + 1 } r p .failed) := by
  have free := brokenImage_wf s.draws
  generalize brokenImage s.draws = broken at free ⊢
  refine .ite ((answerStore_kept _ r p _).after ?_) ((answerStore_kept _ r p _).after (.programmed free rfl rfl rfl rfl rfl rfl))
  refine ⟨fun _ => id, fun ⟨store, _, flight⟩ => ⟨store, ?_, rfl⟩, fun k => ⟨k.sources, k.pods⟩, fun _ _ => ⟨rfl, rfl⟩⟩
  rwa [h] at flight

/-! ## The writings of the store -/

/-- The store written by what keeps its canonical form, at addresses any of which can be written. -/
theorem Kept.written {s u : State} (same : records u = records s) (wf : u.tables.Wf) (all : ∀ a, w a) : Kept w s u :=
  .of_tables same (fun _ => wf) fun a out => absurd (all a) out

/-- A whole image written (R13, R168). -/
theorem Kept.filled (s : State) (image : Nat → Word16) (source : TableSource) (all : ∀ a, w a) :
    Kept w s (s.withTables (s.tables.fill image source)) := by
  have wf := s.tables.fill_wf image source
  generalize s.tables.fill image source = t at wf ⊢
  exact .written rfl wf all

theorem dropDisabled_kept (s : State) (c : Fin 32) : Kept w s (dropDisabled s c) := .ite (.refl s) (.of_same rfl rfl)

theorem eventsWritten_kept (s : State) (cs : List (Fin 32)) : Kept w s (eventsWritten s cs) :=
  (foldl_rel Kept.refl Kept.trans dropDisabled_kept cs s).trans (.of_same rfl rfl)

theorem writeTable_kept (s : State) {a : Area} {index : Nat} {ws : List Word16} (inside : address a index + ws.length ≤ tableWords) (all : ∀ a, w a) :
    Kept w s (writeTable s a index ws) := by
  have written : Kept w s (s.withTables { s.tables.writeWords (address a index) ws with source := .modified }) :=
    .of_tables rfl (TableStore.writeWords_wf ws s.tables _ inside) fun b out => absurd (all b) out
  unfold writeTable
  simp only
  split
  · exact written.trans (eventsWritten_kept _ _)
  · exact written.trans (resolveAll_kept _)
  · exact written

theorem loadLimp_kept (s : State) (v : LimpVariant) (all : ∀ a, w a) : Kept w s (loadLimp s v) := by
  exact ((Kept.filled s (Limp.word v) .limp all).trans (eventsWritten_kept _ _)).trans (resolveAll_kept _)

theorem loadTables_kept (s : State) (all : ∀ a, w a) : Kept w s (loadTables s) := by
  unfold loadTables
  split
  · exact .filled s _ _ all
  · exact .filled s _ _ all

/-- The store lost, or its loading cut short (R173, logs 6 and 10). -/
theorem Kept.lost {s u : State} {t : TableStore} {draw : Nat} (same : records u = records s) (lost : u.tables = lostTables t draw) (all : ∀ a, w a) :
    Kept w s u := .written same (by rw [lost]; exact lostTables_wf t draw) all

/-- An area's words lie within the store (R1). -/
theorem area_within (a : Area) : a.base + a.words ≤ tableWords := by cases a <;> decide

/-- A range judged to lie within its area lies within the store (R166). -/
theorem rangeOf_within {area : Byte} {index count : Nat} {a : Area} {first : Nat} (h : rangeOf area index count = some (a, first)) :
    address a index + count ≤ tableWords := by
  unfold rangeOf at h
  split at h
  · next b _ =>
    split at h
    · next within =>
      cases h
      have := area_within a
      rw [address]
      omega
    · cases h
  · cases h

/-! ## Every command -/

/-- The addresses whose data or parity bits a command can change, by the states in which it does (R8). -/
def writes (c : Instr) (s : State) (a : Nat) : Prop :=
  match c with
  | .powerOn _ _ => s.power = .lost ∨ s.power = .unloaded
  | .writeTable _ _ => s.ignition = false ∧ s.service = .idle ∧ s.power = .running
  | .loadLimp _ _ => s.ignition = false ∧ s.service = .idle ∧ s.power = .running
  | .bitsDisturbedInStorage _ area index _ => a = area.base + index
  | .feedFellBelow2V5 _ => s.power = .held ∨ s.power = .unloaded
  | _ => False

/-- What a command answers, if it answers a state, keeps the standing conditions. -/
def Answers (w : Nat → Prop) (s : State) (r : Result) : Prop := ∀ t, r = .next t → Kept w s t

theorem answers_next {s t : State} (h : Kept w s t) : Answers w s (.next t) := by
  intro u e
  cases e
  exact h

/-- A step of the blocks, by what it does while the part runs. -/
theorem live_answers_running {dt : Time} {s : State} {f : State → State} (h : s.power = .running → Kept w (s.elapse dt) (f (s.elapse dt))) :
    Answers w s (live dt s f) := by
  refine answers_next ?_
  split
  · next run => exact (Kept.elapse dt s).trans (h run)
  · exact .elapse dt s

theorem live_answers {dt : Time} {s : State} {f : State → State} (h : ∀ u, Kept w u (f u)) : Answers w s (live dt s f) :=
  live_answers_running fun _ => h _

theorem execPowerOn_answers (dt : Time) (rise : FeedRise) (s : State) : Answers (writes (.powerOn dt rise) s) s (execPowerOn dt rise s) := by
  refine answers_next ?_
  split
  · next ends =>
    have all : ∀ a, writes (.powerOn dt rise) s a := fun _ => (Power.endsInPowerOn_iff _).mp ends
    split
    · exact (resetBlocks_kept false _).after ((loadTables_kept _ all).after (.of_same rfl rfl))
    · exact .lost rfl rfl all
  · exact .elapse dt s

theorem execFeedFellBelow2V5_answers (dt : Time) (s : State) : Answers (writes (.feedFellBelow2V5 dt) s) s (execFeedFellBelow2V5 dt s) := by
  refine answers_next ?_
  split
  · next retained => exact .lost rfl rfl fun _ => retained
  · exact .elapse dt s

theorem execBitsDisturbedInStorage_answers (dt : Time) (area : Area) (index : Nat) (data : Word16) (s : State) :
    Answers (writes (.bitsDisturbedInStorage dt area index data) s) s (execBitsDisturbedInStorage dt area index data s) := by
  unfold execBitsDisturbedInStorage
  simp only
  split
  · next inside =>
    have within := area_within area
    refine answers_next (.of_tables rfl (fun h => TableStore.setWord_wf _ _ (by rw [address]; omega) h) fun a other => ?_)
    have stands : (((s.elapse dt).tables.setWord (address area index) (((s.elapse dt).tables.word (address area index)).disturb data)).word a) =
        s.tables.word a := TableStore.word_setWord_other _ _ other
    exact ⟨congrArg StoredWord.data stands, congrArg StoredWord.parity stands⟩
  · intro t e
    cases e

/-- A request that only a parked part performs: off that, it is answered without it (R8, R166, R168). -/
theorem parked_kept {s : State} {p : PortId} {f : Frame} {g : State → State}
    (h : s.service = .idle → s.ignition = false → Kept w s (g s)) :
    Kept w s ((unlessBusy s p f fun s => if s.ignition then answer s p f .notParked [] else g s).releasePool p) := by
  refine request_kept fun idle => ?_
  split
  · exact answer_kept s p f _ _
  · next clear => exact h idle (eq_false_of_ne_true clear)

theorem execWriteTable_answers (dt : Time) (p : PortId) (s : State) : Answers (writes (.writeTable dt p) s) s (execWriteTable dt p s) := by
  refine live_answers_running fun run => ?_
  split
  · refine parked_kept fun idle clear => ?_
    split
    · next range => exact (writeTable_kept _ (rangeOf_within range) fun _ => ⟨clear, idle, run⟩).trans (answer_kept _ p _ _ _)
    · exact answer_kept _ p _ _ _
  · exact .refl _

theorem execLoadLimp_answers (dt : Time) (p : PortId) (s : State) : Answers (writes (.loadLimp dt p) s) s (execLoadLimp dt p s) := by
  refine live_answers_running fun run => ?_
  split
  · refine parked_kept fun idle clear => ?_
    split
    · exact (loadLimp_kept _ _ fun _ => ⟨clear, idle, run⟩).trans (answer_kept _ p _ _ _)
    · exact answer_kept _ p _ _ _
  · exact .refl _

theorem execByteReceived_answers (dt : Time) (p : PortId) (edge : ByteEdge) (s : State) : Answers w s (execByteReceived dt p edge s) :=
  answers_next ((Kept.elapse dt s).trans (.ite (.setPort fun h => byteOf_portOrder h _ edge) (.setPort_same rfl rfl rfl rfl)))

theorem execFrameSent_answers (dt : Time) (part : Freeing) (s : State) : Answers w s (execFrameSent dt part s) :=
  live_answers fun u => by
    cases part with
    | withRefill p => exact sendHead_kept (settleRefill_kept · p) u p
    | alone p => exact sendHead_kept (setRefillOwed_kept · p true) u p
    | refill p => exact owedRefill_kept u p

theorem execCollision_answers (dt : Time) (part : Freeing) (s : State) : Answers w s (execCollision dt part s) :=
  live_answers fun u => by
    cases part with
    | withRefill p => exact abandonHead_kept (settleRefill_kept · p) u p
    | alone p => exact abandonHead_kept (setRefillOwed_kept · p true) u p
    | refill p => exact owedRefill_kept u p

theorem execFrameEnd_answers (dt : Time) (p : PortId) (s : State) : Answers w s (execFrameEnd dt p s) :=
  live_answers fun u => .ite ((judgeFrame_kept _ p _).after (.setPort fun h => ⟨h.queue, h.pools, rfl⟩)) (.refl u)

theorem execTransmitStart_answers (dt : Time) (p : PortId) (s : State) : Answers w s (execTransmitStart dt p s) :=
  live_answers fun u => .ite (.setPort_queue QueueWf.startHead rfl rfl rfl) (.refl u)

theorem execSentByteReadBackEqual_answers (dt : Time) (p : PortId) (s : State) : Answers w s (execSentByteReadBackEqual dt p s) :=
  live_answers fun u => by
    simp only
    split
    · exact .ite (.setPort_same rfl rfl rfl rfl) (.refl u)
    · exact .refl u

theorem execTransitCopy_answers (dt : Time) (p : PortId) (s : State) : Answers w s (execTransitCopy dt p s) :=
  live_answers fun u => by
    have read : Kept w u (u.withTables (u.tables.param (transitFlag p)).1) := .withTables (u.tables.param_reads _)
    split
    · exact Kept.trans (.ite read (read.trans (offerCopy_kept _ _ _))) (releasePool_kept _ p)
    · exact .refl u

theorem execFlasherTick_answers (dt : Time) (s : State) : Answers w s (execFlasherTick dt s) := by
  have ticked (u : State) (t : Time) : Kept w u (tickFlasher u t) := by
    unfold tickFlasher
    simp only
    split
    · exact (resolveAll_kept _).after ((Kept.of_flasher (startPhase_touches _ _)).after (.of_same rfl rfl))
    · exact .of_same rfl rfl
  exact live_answers fun u => by
    split
    · exact .ite (ticked u _) (.refl u)
    · exact .refl u

theorem execConversion_answers (dt : Time) (c0 c1 c2 c3 : BitVec 10) (s : State) : Answers w s (execConversion dt c0 c1 c2 c3 s) :=
  live_answers fun u => by
    have four (v : State) := (((presentSample_touches v 0 c0.toNat).trans (presentSample_touches _ 1 c1.toNat)).trans
      (presentSample_touches _ 2 c2.toNat)).trans (presentSample_touches _ 3 c3.toNat)
    exact .ite ((Kept.of_samples (four _)).after (.of_same rfl rfl)) (.refl u)

theorem execGateExpiry_answers (dt : Time) (s : State) : Answers w s (execGateExpiry dt s) :=
  live_answers fun u => by
    have handed (v : State) (n : Nat) : Kept w v (handReading v .tach n) := by
      obtain ⟨_, _, handed, reads, _⟩ := handReading_touches v .tach n
      rw [handed]
      exact .of_reads rfl reads
    exact .ite ((handed _ _).after (.of_reads rfl (u.tables.param_reads .cylinders))) (.refl u)

theorem execGaugeUpdate_answers (dt : Time) (s : State) : Answers w s (execGaugeUpdate dt s) :=
  live_answers fun u => .ite ((Kept.of_gauges (updateGauges_touches _)).after (.of_same rfl rfl)) (.refl u)

/-- The expiry of a report timer makes its pod SILENT with its timer stopped (R104). -/
theorem execReportTimerExpiry_answers (dt : Time) (P : Fin 12) (s : State) : Answers w s (execReportTimerExpiry dt P s) :=
  live_answers fun u => by
    have silent : Kept w u (u.updPod P fun r => { r with state := .silent, report := none }) := .updPod u P fun _ _ => iff_of_true rfl rfl
    simp only
    split
    · generalize (u.updPod P fun r => { r with state := .silent, report := none }) = v at silent ⊢
      generalize (List.finRange 32).foldl (forgetProof P) v.lamps.loads = loads
      exact silent.trans (.of_same rfl rfl)
    · exact .refl u

theorem execIgnitionDebounceExpiry_answers (dt : Time) (s : State) : Answers w s (execIgnitionDebounceExpiry dt s) :=
  live_answers fun u => by
    obtain ⟨_, _, expired, reads⟩ := expireDebounce_touches u
    rw [expired]
    exact .ite (.of_reads rfl reads) (.refl u)

/-- A service request that is answered and released, and no more. -/
theorem answered_kept (s : State) (p : PortId) (f : Frame) (status : Status) (data : List Byte) :
    Kept w s ((answer s p f status data).releasePool p) := (answer_kept s p f status data).trans (releasePool_kept _ p)

theorem execReadState_answers (dt : Time) (p : PortId) (s : State) : Answers w s (execReadState dt p s) :=
  live_answers fun u => by
    split
    · refine request_kept fun _ => ?_
      split
      · exact answer_kept u p _ _ _
      · exact answer_kept u p _ _ _
    · exact .refl u

theorem execClearLatch_answers (dt : Time) (p : PortId) (s : State) : Answers w s (execClearLatch dt p s) :=
  live_answers fun u => by
    split
    · refine request_kept fun _ => ?_
      split
      · exact (clearLatches_kept u _).trans (answer_kept _ p _ _ _)
      · exact answer_kept u p _ _ _
    · exact .refl u

theorem execStoreComplete_answers (dt : Time) (verified : Bool) (s : State) : Answers w s (execStoreComplete dt verified s) :=
  live_answers fun u => by
    split
    · next flight => exact storeEnds_kept u verified flight
    · exact .refl u
    · exact .refl u

theorem execBrownOut_answers (dt : Time) (s : State) : Answers w s (execBrownOut dt s) :=
  answers_next (.ite ((resetBlocks_kept false _).after (.of_same rfl rfl)) (.elapse dt s))

theorem execLowSupplyHold_answers (dt : Time) (s : State) : Answers w s (execLowSupplyHold dt s) :=
  live_answers fun u => (abandonStore_kept u).trans (.of_same rfl rfl)

theorem execIgnitionInputChange_answers (dt : Time) (on : Bool) (s : State) : Answers w s (execIgnitionInputChange dt on s) :=
  answers_next (.ite (.elapse dt s) (.of_same rfl rfl))

theorem execSkipEnd_answers (dt : Time) (p : PortId) (s : State) : Answers w s (execSkipEnd dt p s) :=
  live_answers fun u => .ite (.setPort_same rfl rfl rfl rfl) (.refl u)

theorem execRouteWalk_answers (dt : Time) (p : PortId) (s : State) : Answers w s (execRouteWalk dt p s) :=
  live_answers fun u => by
    split
    · exact (routeFrame_kept u p _).trans (releasePool_kept _ p)
    · exact .refl u

theorem execActionTake_answers (dt : Time) (s : State) : Answers w s (execActionTake dt s) :=
  live_answers fun u => .ite (.refl u) (chooseFrom_kept _ u)

theorem execChainResume_answers (dt : Time) (s : State) : Answers w s (execChainResume dt s) :=
  live_answers fun u => by
    split
    · exact resumeSlot_kept u _
    · exact .refl u

theorem execWaitExpiry_answers (dt : Time) (k : Fin 4) (s : State) : Answers w s (execWaitExpiry dt k s) :=
  live_answers fun u => .ite (.of_same rfl rfl) (.refl u)

theorem execWatchExpiry_answers (dt : Time) (src : Fin 64) (s : State) : Answers w s (execWatchExpiry dt src s) :=
  live_answers fun u => .ite (expireWatch_kept u src) (.refl u)

theorem execLoadFadeExpiry_answers (dt : Time) (s : State) : Answers w s (execLoadFadeExpiry dt s) :=
  live_answers fun u => .ite ((resolveLoads_kept _ true _).after (.of_same rfl rfl)) (.refl u)

theorem execCoolOffExpiry_answers (dt : Time) (l : Fin 32) (s : State) : Answers w s (execCoolOffExpiry dt l s) :=
  live_answers fun u => .ite ((resolveLoads_kept _ false _).after (.of_same rfl rfl)) (.refl u)

theorem execRefreshExpiry_answers (dt : Time) (P : Fin 12) (s : State) : Answers w s (execRefreshExpiry dt P s) :=
  live_answers fun u => .ite ((produceLampcmd_kept u P).trans (startRefresh_kept _ P)) (.refl u)

theorem execStaleExpiry_answers (dt : Time) (d : Fin 16) (s : State) : Answers w s (execStaleExpiry dt d s) :=
  live_answers fun u => .ite (.of_same rfl rfl) (.refl u)

theorem execCoilPulse_answers (dt : Time) (s : State) : Answers w s (execCoilPulse dt s) :=
  live_answers fun u => .ite (.of_same rfl rfl) (.refl u)

theorem execIdentify_answers (dt : Time) (p : PortId) (s : State) : Answers w s (execIdentify dt p s) :=
  live_answers fun u => by
    split
    · exact answered_kept u p _ _ _
    · exact .refl u

theorem execBadRequest_answers (dt : Time) (p : PortId) (s : State) : Answers w s (execBadRequest dt p s) :=
  live_answers fun u => by
    split
    · exact answered_kept u p _ _ _
    · exact .refl u

theorem execReadTable_answers (dt : Time) (p : PortId) (s : State) : Answers w s (execReadTable dt p s) :=
  live_answers fun u => by
    split
    · exact request_kept fun _ => readTable_kept u p _ _ _ _
    · exact .refl u

theorem execReadCounters_answers (dt : Time) (p : PortId) (s : State) : Answers w s (execReadCounters dt p s) :=
  live_answers fun u => by
    split
    · exact request_kept fun _ => readCounters_kept u p _ _ _
    · exact .refl u

theorem execStore_answers (dt : Time) (p : PortId) (s : State) : Answers w s (execStore dt p s) :=
  live_answers fun u => by
    split
    · exact request_kept fun _ => beginStore_kept u p _
    · exact .refl u

theorem execRestart_answers (dt : Time) (p : PortId) (s : State) : Answers w s (execRestart dt p s) :=
  live_answers fun u => by
    split
    · exact request_kept fun _ => beginRestart_kept u p _
    · exact .refl u

/-- Every command keeps the standing conditions, and writes words where `writes` has it. -/
theorem exec_answers (c : Instr) (s : State) : Answers (writes c s) s (exec c s) := by
  cases c with
  | powerOn dt rise => exact execPowerOn_answers dt rise s
  | brownOut dt => exact execBrownOut_answers dt s
  | lowSupplyHold dt => exact execLowSupplyHold_answers dt s
  | feedFellBelow2V5 dt => exact execFeedFellBelow2V5_answers dt s
  | bitsDisturbedInStorage dt a i d => exact execBitsDisturbedInStorage_answers dt a i d s
  | ignitionInputChange dt on => exact execIgnitionInputChange_answers dt on s
  | byteReceived dt p edge => exact execByteReceived_answers dt p edge s
  | frameEnd dt p => exact execFrameEnd_answers dt p s
  | skipEnd dt p => exact execSkipEnd_answers dt p s
  | transmitStart dt p => exact execTransmitStart_answers dt p s
  | sentByteReadBackEqual dt p => exact execSentByteReadBackEqual_answers dt p s
  | frameSent dt part => exact execFrameSent_answers dt part s
  | collision dt part => exact execCollision_answers dt part s
  | transitCopy dt p => exact execTransitCopy_answers dt p s
  | routeWalk dt p => exact execRouteWalk_answers dt p s
  | actionTake dt => exact execActionTake_answers dt s
  | chainResume dt => exact execChainResume_answers dt s
  | waitExpiry dt k => exact execWaitExpiry_answers dt k s
  | watchExpiry dt src => exact execWatchExpiry_answers dt src s
  | ignitionDebounceExpiry dt => exact execIgnitionDebounceExpiry_answers dt s
  | loadFadeExpiry dt => exact execLoadFadeExpiry_answers dt s
  | coolOffExpiry dt l => exact execCoolOffExpiry_answers dt l s
  | refreshExpiry dt P => exact execRefreshExpiry_answers dt P s
  | reportTimerExpiry dt P => exact execReportTimerExpiry_answers dt P s
  | flasherTick dt => exact execFlasherTick_answers dt s
  | conversion dt c0 c1 c2 c3 => exact execConversion_answers dt c0 c1 c2 c3 s
  | staleExpiry dt d => exact execStaleExpiry_answers dt d s
  | coilPulse dt => exact execCoilPulse_answers dt s
  | gateExpiry dt => exact execGateExpiry_answers dt s
  | gaugeUpdate dt => exact execGaugeUpdate_answers dt s
  | identify dt p => exact execIdentify_answers dt p s
  | badRequest dt p => exact execBadRequest_answers dt p s
  | readTable dt p => exact execReadTable_answers dt p s
  | writeTable dt p => exact execWriteTable_answers dt p s
  | readState dt p => exact execReadState_answers dt p s
  | readCounters dt p => exact execReadCounters_answers dt p s
  | clearLatch dt p => exact execClearLatch_answers dt p s
  | store dt p => exact execStore_answers dt p s
  | loadLimp dt p => exact execLoadLimp_answers dt p s
  | restart dt p => exact execRestart_answers dt p s
  | storeComplete dt verified => exact execStoreComplete_answers dt verified s

/-- A step keeps the standing conditions, whichever command it takes. -/
theorem step_kept {s t : State} (e : step s = .next t) : ∃ w, Kept w s t := by
  unfold step at e
  split at e
  · cases e
    exact ⟨fun _ => False, .refl s⟩
  · next c rest _ =>
    exact ⟨writes c { s with pending := rest }, (exec_answers c { s with pending := rest } t e).after (.of_same rfl rfl)⟩

/-- Settles O19. -/
theorem stepKeepsPorts : Obligations.StepKeepsPorts := by
  intro s t order e p
  obtain ⟨_, kept⟩ := step_kept e
  obtain ⟨queue, pools, reception⟩ := order p
  have after := kept.ports p ⟨queue, pools, reception⟩
  exact ⟨after.queue, after.pools, after.reception⟩

/-- Settles O58. -/
theorem stepKeepsMemory : Obligations.StepKeepsMemory := by
  intro s t memory e
  obtain ⟨_, kept⟩ := step_kept e
  exact kept.memory memory

/-- Settles O60. -/
theorem stepKeepsSupervision : Obligations.StepKeepsSupervision := by
  intro s t sources pods e
  obtain ⟨_, kept⟩ := step_kept e
  have after := kept.supervision ⟨sources, pods⟩
  exact ⟨after.sources, after.pods⟩

/-- Settles O59: a word the command in front does not write keeps its bits. -/
theorem storeIsWrittenOnlyWhenParked : Obligations.StoreIsWrittenOnlyWhenParked := by
  intro s t c rest a queue e changed
  rw [StepCompletes.step_front queue] at e
  have kept := exec_answers c { s with pending := rest } t e
  have written : writes c { s with pending := rest } a := by
    by_contra out
    obtain ⟨data, parity⟩ := kept.bits a out
    exact changed.elim (fun other => other data) (fun other => other parity)
  cases c <;> exact written

end Sys2Proof.Machine.StandingOrder
end

section
/-! PROOFS. How block reads move the PARITY counter (R10): by one for each that fails, up to 65535, read after read. -/

namespace Sys2Proof.Machine.ParityCount

/-- From the first store to the second, PARITY has counted `n` times (R10, R30). -/
def Counted (n : Nat) (t u : TableStore) : Prop := u.parityCount.toNat = min 65535 (t.parityCount.toNat + n)

theorem Counted.zero (t : TableStore) : Counted 0 t t := by
  have := t.parityCount.isLt
  unfold Counted
  omega

theorem Counted.trans {m n : Nat} {t u v : TableStore} (h : Counted m t u) (k : Counted n u v) : Counted (m + n) t v := by
  unfold Counted at *
  omega

theorem toNat_bump (c : Counter) : c.bump.toNat = min 65535 (c.toNat + 1) := by
  have := c.isLt
  unfold Counter.bump
  split
  · next full => rw [full]; rfl
  · next room =>
    have : c.toNat ≠ 65535 := fun full => room (BitVec.eq_of_toNat_eq full)
    rw [BitVec.toNat_add]
    simp only [BitVec.toNat_ofNat]
    omega

/-- A block read counts PARITY once where it gives no entry (R10). -/
theorem readBlock_counted (t : TableStore) (a n : Nat) : Counted (t.readBlock a n).2.isNone.toNat t (t.readBlock a n).1 := by
  cases read : (t.readBlock a n).2 with
  | some ws =>
    rw [TableStore.readBlock_some read]
    exact .zero t
  | none =>
    rw [Counted, TableStore.readBlock_none read, toNat_bump]
    rfl

theorem directory_counted (t : TableStore) (a : Fin 64) : Counted (t.directory a).2.isNone.toNat t (t.directory a).1 := by
  simpa only [TableStore.directory, Option.isNone_map] using readBlock_counted t _ _

theorem event_counted (t : TableStore) (c : Fin 32) : Counted (t.event c).2.isNone.toNat t (t.event c).1 := by
  simpa only [TableStore.event, Option.isNone_map] using readBlock_counted t _ _

theorem descriptor_counted (t : TableStore) (d : Fin 16) : Counted (t.descriptor d).2.isNone.toNat t (t.descriptor d).1 := by
  simpa only [TableStore.descriptor, Option.isNone_map] using readBlock_counted t _ _

theorem load_counted (t : TableStore) (l : Fin 32) : Counted (t.load l).2.isNone.toNat t (t.load l).1 := by
  simpa only [TableStore.load, Option.isNone_map] using readBlock_counted t _ _

/-- A block of one word is none exactly where the word fails (R10). -/
theorem readBlock_one_isNone (t : TableStore) (a : Nat) : (t.readBlock a 1).2.isNone = (t.word a).fails := by
  have one : t.failing a 1 = if (t.word a).fails then [a] else [] := by
    cases fails : (t.word a).fails <;> simp [TableStore.failing, fails]
  cases fails : (t.word a).fails with
  | false => rw [TableStore.readBlock_good (by rw [one, fails]; rfl)]; rfl
  | true => rw [TableStore.readBlock_bad (by rw [one, fails]; exact List.cons_ne_nil a [])]; rfl

theorem param_counted (t : TableStore) (p : Param) : Counted (t.word (address .parameters p.index)).fails.toNat t (t.param p).1 := by
  rw [← readBlock_one_isNone]
  exact readBlock_counted t _ 1

/-- Reads made one after another, each with its own cost, which reads leave as it is. -/
theorem foldl_counted {α β : Type} {store : α → TableStore} {step : α → β → α} {cost : TableStore → β → Nat}
    (reads : ∀ a b, (store a).Reads (store (step a b))) (counts : ∀ a b, Counted (cost (store a) b) (store a) (store (step a b)))
    (stable : ∀ {t u : TableStore}, t.Reads u → cost u = cost t) :
    ∀ (l : List β) (a : α), Counted (l.map (cost (store a))).sum (store a) (store (l.foldl step a)) := by
  intro l
  induction l with
  | nil => exact fun a => .zero _
  | cons b l ih =>
    intro a
    have rest := ih (step a b)
    rw [stable (reads a b)] at rest
    exact (counts a b).trans rest

theorem sum_map_toNat {β : Type} (p : β → Bool) : ∀ l : List β, (l.map fun b => (p b).toNat).sum = l.countP p := by
  intro l
  induction l with
  | nil => rfl
  | cons b l ih =>
    rw [List.map_cons, List.sum_cons, ih, List.countP_cons]
    cases p b <;> simp [Nat.add_comm]

/-- Reads made one after another, some of them failing. -/
theorem foldl_countP {α β : Type} {store : α → TableStore} {step : α → β → α} {fails : TableStore → β → Bool}
    (reads : ∀ a b, (store a).Reads (store (step a b))) (counts : ∀ a b, Counted (fails (store a) b).toNat (store a) (store (step a b)))
    (stable : ∀ {t u : TableStore}, t.Reads u → fails u = fails t) (l : List β) (a : α) :
    Counted (l.countP (fails (store a))) (store a) (store (l.foldl step a)) := by
  rw [← sum_map_toNat]
  exact foldl_counted (cost := fun t b => (fails t b).toNat) reads counts (fun h => by rw [stable h]) l a

/-! ## The reads of a reset -/

theorem resetRoutes_counted (s : State) :
    Counted ((List.finRange 64).countP fun a => (s.tables.directory a).2.isNone) s.tables (resetRoutes s).tables := by
  have counted := foldl_countP (store := Prod.fst) (step := startWatch s.now) (fails := fun t a => (t.directory a).2.isNone) (startWatch_reads s.now)
    (fun p a => directory_counted p.1 a) (fun h => funext fun a => by rw [h.directory]) (List.finRange 64) (s.tables, s.routes.sources)
  unfold resetRoutes
  simp only
  generalize (List.finRange 64).foldl (startWatch s.now) (s.tables, s.routes.sources) = read at counted ⊢
  exact counted

theorem resetEvents_counted (s : State) :
    Counted ((List.finRange 32).countP fun c => (s.tables.event c).2.isNone) s.tables (resetEvents s).tables := by
  have counted := foldl_countP (store := Prod.fst) (step := setUpChannel) (fails := fun t c => (t.event c).2.isNone) setUpChannel_reads
    (fun p c => event_counted p.1 c) (fun h => funext fun c => by rw [h.event]) (List.finRange 32) (s.tables, s.events.channels)
  unfold resetEvents
  simp only
  generalize (List.finRange 32).foldl setUpChannel (s.tables, s.events.channels) = read at counted ⊢
  exact counted

theorem resetSampler_counted (s : State) :
    Counted ((List.finRange 16).countP fun d => (s.tables.descriptor d).2.isNone) s.tables (resetSampler s).tables := by
  have counted := foldl_countP (store := Prod.fst) (step := startStale s.now) (fails := fun t d => (t.descriptor d).2.isNone) (startStale_reads s.now)
    (fun p d => descriptor_counted p.1 d) (fun h => funext fun d => by rw [h.descriptor]) (List.finRange 16) (s.tables, s.sampler.descriptors)
  unfold resetSampler
  simp only
  generalize (List.finRange 16).foldl (startStale s.now) (s.tables, s.sampler.descriptors) = read at counted ⊢
  exact counted

/-- Whether the word of the refresh period fails. -/
def refreshFails (t : TableStore) : Bool := (t.word (address .parameters (Param.index .refreshPeriod))).fails

theorem refreshFails_stable {t u : TableStore} (h : t.Reads u) : refreshFails u = refreshFails t :=
  TableStore.fails_congr (h.1.2.1 _).1 (h.1.2.1 _).2.1

/-- The two timers of each pod read the refresh period once each (R100, log 19). -/
theorem startTimers_counted (s : State) :
    Counted (24 * (refreshFails s.tables).toNat) s.tables
      ((List.finRange 12).foldl (fun s P => startReport (startRefresh s P) P) s).tables := by
  have each (u : State) (P : Fin 12) : Counted (2 * (refreshFails u.tables).toNat) u.tables (startReport (startRefresh u P) P).tables := by
    have first := param_counted u.tables .refreshPeriod
    have second := param_counted (u.tables.param .refreshPeriod).1 .refreshPeriod
    have again : ((u.tables.param .refreshPeriod).1.word (address .parameters (Param.index .refreshPeriod))).fails = refreshFails u.tables :=
      refreshFails_stable (u.tables.param_reads _)
    rw [again] at second
    rw [two_mul]
    exact first.trans second
  have all := foldl_counted (store := State.tables) (step := fun s P => startReport (startRefresh s P) P)
    (cost := fun t _ => 2 * (refreshFails t).toNat)
    (fun u P => by
      obtain ⟨⟨_, _, _, _, started, reads, _⟩, _⟩ := (startRefresh_touches u P).trans (startReport_touches _ P)
      rw [started]
      exact reads)
    each (fun h => by rw [refreshFails_stable h]) (List.finRange 12) s
  simp only [List.map_const', List.length_finRange, List.sum_replicate, smul_eq_mul] at all
  rwa [show 24 * (refreshFails s.tables).toNat = 12 * (2 * (refreshFails s.tables).toNat) by omega]

/-- The loads of a resolution read their entries once each, and the merge of pods at rest reads none (R94, R101). -/
theorem resolveAll_counted {s : State} (rest : ResetSetUp.AtRest s) :
    Counted ((List.finRange 32).countP fun l => (s.tables.load l).2.isNone) s.tables (resolveAll s).tables := by
  obtain ⟨t, v, resolved, _, records⟩ := ResetSetUp.loadsResolved_all s
  have dark (l : Fin 32) : (v[l]).effective = 0 := by
    rw [records, rest.env, rest.loads, ResetSetUp.resolved_atRest]
    rfl
  have merged : resolveAll s = LampPods.loadsResolved s false (List.finRange 32) := by
    rw [resolveAll, LampPods.resolveLoads_eq, resolved]
    exact ResetSetUp.foldl_mergePod_same (fun P => (ResetSetUp.mergedLevels_dark dark P).trans (rest.levels P).symm) _
  have counted := foldl_countP (store := Prod.fst) (step := resolveLoad s.lampEnv false) (fails := fun t l => (t.load l).2.isNone)
    (resolveLoad_reads s.lampEnv false) (fun p l => load_counted p.1 l) (fun h => funext fun l => by rw [h.load]) (List.finRange 32)
    (s.tables, s.lamps.loads)
  rw [merged]
  unfold LampPods.loadsResolved
  simp only
  generalize (List.finRange 32).foldl (resolveLoad s.lampEnv false) (s.tables, s.lamps.loads) = read at counted ⊢
  exact counted

theorem resetLamps_counted {s : State} (env : s.lampEnv = ResetSetUp.restEnv s.now) (loads : ∀ l : Fin 32, s.lamps.loads[l] = .afterReset)
    (pods : ∀ P : Fin 12, s.lamps.pods[P] = .afterReset) :
    Counted (24 * (refreshFails s.tables).toNat + (List.finRange 32).countP fun l => (s.tables.load l).2.isNone) s.tables (resetLamps s).tables := by
  obtain ⟨t, w, started, reads, timers⟩ := ResetSetUp.foldl_startTimers (List.finRange 12) s
  have timersRead := startTimers_counted s
  have rest : ResetSetUp.AtRest { s with tables := t, lamps := { s.lamps with pods := w } } :=
    ⟨env, loads, fun P => by rw [timers, if_pos (List.mem_finRange P), pods]; rfl⟩
  have loadsRead := resolveAll_counted rest
  have entries : (fun l : Fin 32 => (t.load l).2.isNone) = fun l => (s.tables.load l).2.isNone := funext fun l => by rw [reads.load]
  rw [started] at timersRead
  rw [resetLamps, started]
  simp only [entries] at loadsRead
  exact timersRead.trans loadsRead

/-- What the reads of a reset count (R10, R36, R55, R94, R100, R131). -/
def resetReads (t : TableStore) : Nat :=
  ((List.finRange 64).countP fun a => (t.directory a).2.isNone) + ((List.finRange 32).countP fun c => (t.event c).2.isNone) +
    ((List.finRange 16).countP fun d => (t.descriptor d).2.isNone) +
      (24 * (refreshFails t).toNat + (List.finRange 32).countP fun l => (t.load l).2.isNone)

theorem resetReads_le (t : TableStore) : resetReads t ≤ 168 := by
  have directory := List.countP_le_length (p := fun a => (t.directory a).2.isNone) (l := List.finRange 64)
  have event := List.countP_le_length (p := fun c => (t.event c).2.isNone) (l := List.finRange 32)
  have descriptor := List.countP_le_length (p := fun d => (t.descriptor d).2.isNone) (l := List.finRange 16)
  have load := List.countP_le_length (p := fun l => (t.load l).2.isNone) (l := List.finRange 32)
  have refresh := Bool.toNat_le (refreshFails t)
  simp only [List.length_finRange] at directory event descriptor load
  unfold resetReads
  omega

/-- A whole reset counts PARITY once for each of its reads that fails. -/
theorem resetBlocks_counted (keep : Bool) (s : State) :
    Counted (resetReads (clearBlocks keep s).tables) (clearBlocks keep s).tables (resetBlocks keep s).tables := by
  have counted1 := resetRoutes_counted (clearBlocks keep s)
  have counted2 := resetEvents_counted (resetRoutes (clearBlocks keep s))
  have counted3 := resetSampler_counted (resetEvents (resetRoutes (clearBlocks keep s)))
  obtain ⟨t1, sources, routes, reads1, _⟩ := ResetSetUp.resetRoutes_sets (clearBlocks keep s)
  obtain ⟨t2, channels, events, reads2, _⟩ := ResetSetUp.resetEvents_sets (resetRoutes (clearBlocks keep s))
  obtain ⟨t3, descriptors, sampler, reads3, _⟩ := ResetSetUp.resetSampler_sets (resetEvents (resetRoutes (clearBlocks keep s)))
  have counted4 := resetLamps_counted (s := resetSampler (resetEvents (resetRoutes (clearBlocks keep s))))
    (by rw [sampler, events, routes]; exact ResetSetUp.clearBlocks_lampEnv keep s)
    (fun l => by rw [sampler, events, routes]; exact Vector.getElem_replicate ..)
    (fun P => by rw [sampler, events, routes]; exact Vector.getElem_replicate ..)
  have first : (clearBlocks keep s).tables.Reads (resetRoutes (clearBlocks keep s)).tables := by rw [routes]; exact reads1
  have second : (clearBlocks keep s).tables.Reads (resetEvents (resetRoutes (clearBlocks keep s))).tables := by rw [events]; exact first.trans reads2
  have third : (clearBlocks keep s).tables.Reads (resetSampler (resetEvents (resetRoutes (clearBlocks keep s)))).tables := by
    rw [sampler]; exact second.trans reads3
  simp only [first.event] at counted2
  simp only [second.descriptor] at counted3
  simp only [third.load, refreshFails_stable third] at counted4
  exact ((counted1.trans counted2).trans counted3).trans counted4

end Sys2Proof.Machine.ParityCount
end

section
/-! PROOFS. The state after reset, and the two resets that end a hold: what POWER_ON fills the store with (R13, R14, R172, R173), and what BROWN_OUT
keeps (R31, R173). -/

namespace Sys2Proof.Machine.SupplyResets

open ParityCount

/-! ## The state after reset -/

/-- The reset state is what every reset sets up, entry by entry of the SEPARATE tables (R174 to R180). -/
theorem reset_setUp : State.reset.SetUp := by
  refine ⟨⟨rfl, rfl, rfl, rfl, rfl, rfl, rfl, rfl⟩, ⟨rfl, rfl, rfl, rfl, rfl, rfl, rfl, rfl⟩, ?sources, ?channels, rfl, rfl, by decide, by decide,
    rfl, rfl, ?loads, ?pods, rfl, rfl, ?descriptors, rfl, rfl, rfl, rfl, rfl, by decide, rfl, rfl, rfl⟩
  case sources => decide +kernel
  case channels => decide +kernel
  case loads => decide +kernel
  case pods => decide +kernel
  case descriptors => decide +kernel

/-- A store without a marked word shows no TABLE-FAULT (R10). -/
theorem tableFault_of_unmarked {t : TableStore} (h : ∀ a < tableWords, (t.word a).mark = false) : t.tableFault = false := by
  have none : t.marked = [] := List.filter_eq_nil_iff.mpr fun a inside => by rw [h a (List.mem_range.mp inside)]; exact Bool.false_ne_true
  rw [TableStore.tableFault, none]
  rfl

/-- Settles O3: set up, and each standing condition of a part set up. -/
theorem resetIsSetUp : Obligations.ResetIsSetUp := by
  have setUp := reset_setUp
  obtain ⟨front, rear, _, _, _, _, _, _, _, _, loads, pods, _, _, descriptors, _⟩ := setUp
  have supervised := StandingOrder.setUp_supervised reset_setUp
  have ports (p : PortId) : StandingOrder.PortOrder (State.reset.port p) := by
    cases p with
    | front => exact StandingOrder.setUp_portOrder front
    | rear => exact StandingOrder.setUp_portOrder rear
  have merged : State.reset.PodsMerged := fun P => by
    rw [pods P, ResetSetUp.mergedLevels_dark fun l => by rw [loads l]]
  have loadWf (l : Fin 32) : (State.reset.lamps.loads[l]).Wf := by
    rw [loads l]
    exact ⟨Nat.zero_le 7, fun _ => Nat.zero_le 6, fun _ => rfl, fun _ => rfl, iff_of_false nofun nofun, iff_of_false nofun nofun⟩
  have descriptorWf (d : Fin 16) : (State.reset.sampler.descriptors[d]).Wf := by
    rw [descriptors d]
    exact ⟨⟨rfl, rfl⟩, nofun⟩
  exact ⟨rfl, reset_setUp, ⟨rfl, rfl, rfl, rfl, rfl, rfl, rfl, rfl⟩, ⟨rfl, rfl, rfl, rfl, rfl, rfl, rfl, rfl⟩, rfl,
    tableFault_of_unmarked fun _ _ => rfl, rfl, rfl, rfl, rfl, rfl, rfl, rfl, ⟨rfl, rfl, rfl⟩,
    fun p => ⟨(ports p).queue, (ports p).pools, (ports p).reception⟩, by decide +kernel, loadWf, merged, by decide, descriptorWf, by decide,
    by decide, supervised.pods, supervised.sources⟩

/-! ## The check word -/

/-- Ones' complement addition is addition with end-around carry (R13, R18). -/
theorem onesAdd_eq {a b : Nat} (ha : a < 65536) (hb : b < 65536) : onesAdd a b = (a + b) % 65536 + (a + b) / 65536 := by
  unfold onesAdd
  split <;> omega

theorem onesAdd_lt {a b : Nat} (ha : a < 65536) (hb : b < 65536) : onesAdd a b < 65536 := by
  unfold onesAdd
  split <;> omega

/-- The ones' complement sum of words, added with end-around carry from any 16-bit start. -/
theorem foldl_onesAdd (word : Nat → Word16) : ∀ (l : List Nat) (start : Nat), start < 65536 →
    (l.map fun a => (word a).toNat).foldl onesAdd start =
      l.foldl (fun a i => (a + (word i).toNat) % 65536 + (a + (word i).toNat) / 65536) start := by
  intro l
  induction l with
  | nil => exact fun _ _ => rfl
  | cons i l ih =>
    intro start within
    have next := onesAdd_lt within (word i).isLt
    rw [List.map_cons, List.foldl_cons, List.foldl_cons, ih _ next, onesAdd_eq within (word i).isLt]

/-- The NV image is good where its check word is the complement of that sum (R13). -/
theorem nvGood_iff (s : State) : nvGood s = true ↔ s.nvWord 1408 = ~~~(BitVec.ofNat 16
    ((List.range 1408).foldl (fun a i => (a + (s.nvWord i).toNat) % 65536 + (a + (s.nvWord i).toNat) / 65536) 0)) := by
  rw [nvGood, beq_iff_eq, nvCheck, onesSum, foldl_onesAdd s.nvWord _ 0 (by decide)]

/-! ## POWER_ON -/

/-- A fresh word agrees with its parity bit (R8, R10). -/
theorem fresh_fails (w : Word16) : (fresh w).fails = false := by
  unfold fresh StoredWord.fails
  cases oddOnes w <;> rfl

/-- Every word of a store just filled is fresh, and so is every address beyond it (R8, R13). -/
theorem word_fill_fresh (t : TableStore) (image : Nat → Word16) (source : TableSource) (a : Nat) : ∃ w, (t.fill image source).word a = fresh w := by
  by_cases inside : a < tableWords
  · exact ⟨image a, TableStore.word_fill t image source a inside⟩
  · refine ⟨Limp.word .separate a, ?_⟩
    rw [TableStore.fill, TableStore.word, Memory.read_ofFn, if_neg inside]
    rfl

/-- The store a power-on loads: the NV image where its check word agrees, and the limp variant of the strap otherwise (R13, R14). -/
def loaded (s : State) : TableStore := if nvGood s then s.tables.fill s.nvWord .nv else s.tables.fill (Limp.word s.straps.limp) .limp

theorem loaded_word (s : State) (a : Nat) (inside : a < tableWords) :
    (loaded s).word a = fresh (if nvGood s then s.nvWord a else Limp.word s.straps.limp a) := by
  unfold loaded
  split
  · exact TableStore.word_fill _ _ _ a inside
  · exact TableStore.word_fill _ _ _ a inside

theorem loaded_fails (s : State) (a : Nat) : ((loaded s).word a).fails = false := by
  unfold loaded
  split
  · obtain ⟨w, word⟩ := word_fill_fresh s.tables s.nvWord .nv a
    rw [word, fresh_fails]
  · obtain ⟨w, word⟩ := word_fill_fresh s.tables (Limp.word s.straps.limp) .limp a
    rw [word, fresh_fails]

theorem loaded_source (s : State) : (loaded s).source = if nvGood s then .nv else .limp := by
  unfold loaded
  split <;> rfl

/-- The counters of a port after a reset that keeps none (R31). -/
theorem allZero_of_reset {c d : PortCounters} (h : c = keepPortCounts false d) : c.AllZero := by
  rw [h]
  exact ⟨rfl, rfl, rfl, rfl, rfl, rfl, rfl, rfl⟩

/-- A reset of a store no word of which fails leaves it as it was, its count cleared (R10, R31). -/
theorem resetBlocks_tables_good {s : State} (good : ∀ a, (s.tables.word a).fails = false) :
    (resetBlocks false s).tables = { s.tables with parityCount := 0 } := by
  obtain ⟨_, _, _, _, _, _, _, _, reads, _⟩ := resetBlocks_keeps false s
  exact reads.1.2.2.1 good

/-- What a power-on whose loading completes answers (R13, R14, R31, R172, R173). -/
theorem resetBlocks_loaded {s : State} :
    (resetBlocks false (loadTables s)).tables = { loaded s with parityCount := 0 } :=
  resetBlocks_tables_good (s := loadTables s) (loaded_fails s)

/-- Settles O4, by the states of the feed. -/
theorem powerOnFillsAndSetsUp : Obligations.PowerOnFillsAndSetsUp := by
  intro dt rise s
  refine ⟨fun feed whole => ?_, fun feed cut => ?_, fun feed => ?_, nvGood_iff s⟩
  · have answer := execPowerOn_loaded dt ((Power.endsInPowerOn_iff s.power).mpr feed) whole
    have tables := resetBlocks_loaded (s := { s.elapse dt with power := .running, straps := rise.pins })
    have word := loaded_word { s.elapse dt with power := .running, straps := rise.pins }
    have source := loaded_source { s.elapse dt with power := .running, straps := rise.pins }
    have setUp := ResetSetUp.resetBlocks_setUp false (loadTables { s.elapse dt with power := .running, straps := rise.pins })
    obtain ⟨pending, now, _, power, straps, nv, _, raw, _, front, rear, miss, report, lost, fault, slots⟩ :=
      resetBlocks_keeps false (loadTables { s.elapse dt with power := .running, straps := rise.pins })
    have marks (a : Nat) (inside : a < tableWords) : ((loaded { s.elapse dt with power := .running, straps := rise.pins }).word a).mark = false := by
      rw [word a inside]
      rfl
    generalize loaded { s.elapse dt with power := .running, straps := rise.pins } = filled at tables word source marks
    generalize resetBlocks false (loadTables { s.elapse dt with power := .running, straps := rise.pins }) = t at *
    exact ⟨t, answer, setUp, power, now, straps, by rw [tables]; exact source, fun a inside => by rw [tables]; exact word a inside, by rw [tables],
      tableFault_of_unmarked fun a inside => by rw [tables]; exact marks a inside, allZero_of_reset front, allZero_of_reset rear, miss, report, lost,
      fault, slots, nv, raw, pending⟩
  · exact ⟨_, execPowerOn_cut dt ((Power.endsInPowerOn_iff s.power).mpr feed) cut, rfl⟩
  · have off : s.power.endsInPowerOn = false := by
      cases feed with
      | inl running => rw [running]; rfl
      | inr held => rw [held]; rfl
    exact execPowerOn_off dt rise off

/-! ## BROWN_OUT -/

/-- What a block read gives does not depend on the count (R10). -/
theorem readBlock_snd_count (t : TableStore) (c : Counter) (a n : Nat) : (({ t with parityCount := c } : TableStore).readBlock a n).2 = (t.readBlock a n).2 := by
  by_cases good : t.failing a n = []
  · rw [TableStore.readBlock_good good, TableStore.readBlock_good (t := { t with parityCount := c }) good]
    rfl
  · rw [TableStore.readBlock_bad good, TableStore.readBlock_bad (t := { t with parityCount := c }) good]

theorem resetReads_count (t : TableStore) (c : Counter) : resetReads { t with parityCount := c } = resetReads t := by
  simp only [resetReads, TableStore.directory, TableStore.event, TableStore.descriptor, TableStore.load, readBlock_snd_count]
  rfl

/-- Settles O5: the reset of a part held, whose PARITY counts its failing reads. -/
theorem brownOutKeepsTheStore : Obligations.BrownOutKeepsTheStore := by
  intro dt s
  refine ⟨fun held => ?_, fun other => execBrownOut_off dt other⟩
  have answer := execBrownOut_held dt held
  have setUp := ResetSetUp.resetBlocks_setUp false { s.elapse dt with power := .running }
  have counted := resetBlocks_counted false { s.elapse dt with power := .running }
  obtain ⟨pending, now, _, power, straps, nv, _, raw, reads, front, rear, miss, report, lost, fault, slots⟩ :=
    resetBlocks_keeps false { s.elapse dt with power := .running }
  generalize resetBlocks false { s.elapse dt with power := .running } = t at *
  have few := resetReads_le s.tables
  have parity : t.tables.parityCount.toNat = resetReads s.tables := by
    have fromZero : t.tables.parityCount.toNat = min 65535 (0 + resetReads s.tables) :=
      Eq.trans counted (congrArg (fun n => min 65535 (0 + n)) (resetReads_count s.tables 0))
    omega
  refine ⟨t, answer, setUp, power, now, straps, reads.1, ?_, allZero_of_reset front, allZero_of_reset rear, miss, report, lost, fault, slots, nv,
    raw, pending⟩
  have refresh : 24 * (refreshFails s.tables).toNat = if (s.tables.word (address .parameters (Param.index .refreshPeriod))).fails then 24 else 0 := by
    unfold refreshFails
    cases (s.tables.word (address .parameters (Param.index .refreshPeriod))).fails <;> rfl
  rw [parity, resetReads, refresh]
  omega

end Sys2Proof.Machine.SupplyResets
end

section
/-! PROOFS. The words of the store and the line of a port: a disturbed word and a block read (R10), the bytes and the quiet that move a line (R15, R16, R25),
and the judgements of a complete frame up to its pool (R19 to R23). -/

namespace Sys2Proof.Machine.PortEvents

/-! ## Disturbed words and block reads -/

/-- A disturbed word fails (R10). -/
theorem disturb_fails (w : StoredWord) (data : Word16) : (w.disturb data).fails = true := beq_self_eq_true _

/-- A word that fails is no unlisted one, so that it reads back as written (log 11). -/
theorem word_setWord_failing (t : TableStore) (a : Nat) {w : StoredWord} (h : w.fails = true) : (t.setWord a w).word a = w := by
  refine Memory.read_write_listed unlistedWord t.cells a w fun unlisted => ?_
  rw [unlisted, unlistedWord, SupplyResets.fresh_fails] at h
  cases h

theorem execBitsDisturbedInStorage_inside (dt : Time) {area : Area} {index : Nat} (data : Word16) (s : State) (inside : index < area.words) :
    execBitsDisturbedInStorage dt area index data s =
      .next ((s.elapse dt).withTables (s.tables.setWord (area.base + index) ((s.tables.word (area.base + index)).disturb data))) := if_pos inside

theorem execBitsDisturbedInStorage_outside (dt : Time) {area : Area} {index : Nat} (data : Word16) (s : State) (outside : area.words ≤ index) :
    execBitsDisturbedInStorage dt area index data s = .fault .noSuchWord := if_neg (Nat.not_lt.mpr outside)

/-- Settles O7: a disturbance by the area its word lies in, a block read by whether a word of the block fails. -/
theorem disturbedWordFails : Obligations.DisturbedWordFails := by
  refine ⟨fun dt area index data s => ⟨fun inside => ?_, execBitsDisturbedInStorage_outside dt data s⟩, fun t a n => ⟨fun good => ?_, ?_⟩⟩
  · refine ⟨_, execBitsDisturbedInStorage_inside dt data s inside, rfl, rfl, rfl, ?_⟩
    have fails := disturb_fails (s.tables.word (area.base + index)) data
    simp only [State.withTables_tables, word_setWord_failing s.tables _ fails]
    exact ⟨rfl, fails, rfl, fun a other => TableStore.word_setWord_other s.tables _ other⟩
  · have none : t.failing a n = [] := List.eq_nil_iff_forall_not_mem.mpr fun b failing => by
      obtain ⟨⟨low, high⟩, fails⟩ := TableStore.mem_failing.mp failing
      exact absurd ((good b low high).symm.trans fails) nofun
    rw [TableStore.readBlock_good none]
    exact ⟨rfl, rfl⟩
  · rintro ⟨b, low, high, fails⟩
    have some : t.failing a n ≠ [] := List.ne_nil_of_mem (TableStore.mem_failing.mpr ⟨⟨low, high⟩, fails⟩)
    obtain ⟨source, words, _⟩ := TableStore.markAll_spec (t.failing a n) t
    rw [TableStore.readBlock_bad some]
    refine ⟨rfl, source, rfl, fun c => (words c).trans ?_⟩
    simp only [TableStore.mem_failing, and_assoc]
    split
    · next marked => simp [marked]
    · next unmarked => simp [unmarked]

/-! ## The line -/

/-- While the part runs a byte's edge moves the line of its port (R16). -/
theorem execByteReceived_running (dt : Time) (p : PortId) (edge : ByteEdge) {s : State} (run : s.power = .running) :
    execByteReceived dt p edge s = .next ((s.elapse dt).setPort p ((s.port p).byteOf (s.now + dt) edge)) := by
  simp only [execByteReceived, State.elapse_power, run, if_true, State.port_elapse, State.elapse_now]

/-- The quiet as the statements spell it (R15). -/
theorem quietFor_iff (q : Port) (now t : Time) : q.quietFor now t = true ↔ q.QuietFor now t := by
  simp only [Port.quietFor, Bool.and_eq_true, Bool.not_eq_true', decide_eq_true_eq, Port.QuietFor]

/-- Settles O8, by the state of the line. -/
theorem byteReceivedFollowsLine : Obligations.ByteReceivedFollowsLine := by
  intro dt p s run
  refine ⟨(execByteReceived_running dt p .begins run).trans ?_, fun v stop => (execByteReceived_running dt p (.ends v stop) run).trans ?_⟩
  · cases line : (s.port p).line with
    | idle =>
      simp only [Port.byteOf, Port.byteBegins, line, quietFor_iff, Port.QuietFor]
      split <;> rfl
    | receiving | skipping | transmitting =>
      simp only [Port.byteOf, Port.byteBegins, line]
      rfl
  · cases line : (s.port p).line with
    | idle | receiving | skipping | transmitting =>
      simp only [Port.byteOf, Port.byteEnds, line]
      rfl

/-- The bytes of a frame as sent: header, payload and check (R17, R181). -/
theorem bytes_length (f : Frame) : f.bytes.length = 6 + f.payload.length := by
  simp only [Frame.bytes, Frame.body, twoBytes, List.length_append, List.length_cons, List.length_nil]
  omega

/-- The quiet of a port at a command's moment (R15). -/
theorem elapse_quietFor {s : State} {p : PortId} {dt t : Time} (quiet : (s.port p).QuietFor (s.now + dt) t) :
    ((s.elapse dt).port p).quietFor (s.elapse dt).now t = true := by
  rw [State.port_elapse]
  exact (quietFor_iff _ _ _).mpr quiet

theorem execSkipEnd_quiet (dt : Time) {p : PortId} {s : State} (run : s.power = .running) (line : (s.port p).line = .skipping)
    (quiet : (s.port p).QuietFor (s.now + dt) (2 * Config.byteTime)) :
    execSkipEnd dt p s = .next ((s.elapse dt).setPort p { s.port p with line := .idle }) := by
  refine (live_running run).trans (congrArg Host.Outcome.next ?_)
  refine (if_pos ⟨by rwa [State.port_elapse], elapse_quietFor quiet⟩).trans ?_
  rw [State.port_elapse]

theorem execTransmitStart_quiet (dt : Time) {p : PortId} {s : State} {e : QueueEntry} {rest : List QueueEntry} (run : s.power = .running)
    (line : (s.port p).line = .idle) (queue : (s.port p).queue = e :: rest) (quiet : (s.port p).QuietFor (s.now + dt) (3 * Config.byteTime)) :
    execTransmitStart dt p s =
      .next ((s.elapse dt).setPort p { s.port p with line := .transmitting, queue := { e with started := true } :: rest, sentBytes := 0 }) := by
  refine (live_running run).trans (congrArg Host.Outcome.next ?_)
  refine (if_pos ⟨by rwa [State.port_elapse], by rw [State.port_elapse, queue]; exact List.cons_ne_nil e rest, elapse_quietFor quiet⟩).trans ?_
  rw [State.port_elapse, queue, startHead]

theorem execSentByteReadBackEqual_more (dt : Time) {p : PortId} {s : State} {e : QueueEntry} {rest : List QueueEntry} (run : s.power = .running)
    (line : (s.port p).line = .transmitting) (queue : (s.port p).queue = e :: rest) (more : (s.port p).sentBytes + 1 < 6 + e.frame.payload.length) :
    execSentByteReadBackEqual dt p s =
      .next ((s.elapse dt).setPort p { s.port p with sentBytes := (s.port p).sentBytes + 1, quietFrom := s.now + dt }) := by
  refine (live_running run).trans (congrArg Host.Outcome.next ?_)
  rw [← bytes_length] at more
  simp only [State.port_elapse, line, queue, more, if_true, State.elapse_now]

/-- Settles O12, by the conditions of each event. -/
theorem lineEventsComplete : Obligations.LineEventsComplete := fun dt _ _ run =>
  ⟨fun line quiet => execSkipEnd_quiet dt run line quiet, fun _ _ line queue quiet => execTransmitStart_quiet dt run line queue quiet,
    fun _ _ line queue more => execSentByteReadBackEqual_more dt run line queue more⟩

/-! ## The judgements of a frame -/

/-- A complete frame is taken from the line and judged (R16, R19). -/
theorem execFrameEnd_quiet (dt : Time) {p : PortId} {s : State} (run : s.power = .running) (line : (s.port p).line = .receiving)
    (quiet : (s.port p).QuietFor (s.now + dt) (2 * Config.byteTime)) :
    execFrameEnd dt p s =
      .next (judgeFrame ((s.elapse dt).setPort p { s.port p with line := .idle, reception := .empty }) p (s.port p).reception) := by
  refine (live_running run).trans (congrArg Host.Outcome.next ?_)
  refine (if_pos ⟨by rwa [State.port_elapse], elapse_quietFor quiet⟩).trans ?_
  rw [State.port_elapse]

/-- The conditions of R19, any one of which is a format error. -/
theorem formatError_iff (r : Reception) : r.formatError = true ↔ r.count < 6 ∨ r.count < 6 + byteAt r.bytes 3 ∨ 6 + byteAt r.bytes 3 < r.count ∨
    16 < byteAt r.bytes 3 ∨ 15 < byteAt r.bytes 2 ∨ 63 < byteAt r.bytes 0 ∨ 63 < byteAt r.bytes 1 ∨ r.byteFault = true := by
  simp only [Reception.formatError, Bool.or_eq_true, decide_eq_true_eq, or_assoc]
  rw [← or_assoc (a := r.count < 6 + byteAt r.bytes 3), ← lt_or_lt_iff_ne]

/-- Settles O9. -/
theorem formatErrorCountsOnce : Obligations.FormatErrorCountsOnce := by
  intro dt p s run line quiet r fault
  refine (execFrameEnd_quiet dt run line quiet).trans ?_
  rw [judgeFrame, if_pos ((formatError_iff _).mpr fault), State.setPort_setPort, State.port_setPort]
  rfl

/-- The counters of a port that places a good frame: exactly one of RX-GOOD and RX-OVERFLOW counts (R22, R30). -/
theorem place_counters (q : Port) (x : HeldFrame) : (q.place x).handOver.counters = { q.counters with rxGood := q.counters.rxGood.bump } ∨
    (q.place x).handOver.counters = { q.counters with rxOverflow := q.counters.rxOverflow.bump } := by
  rw [Port.handOver_eq (q.place x)]
  cases a : q.poolA with
  | free =>
    refine .inl ?_
    cases b : q.poolB <;> simp only [Port.place, a, b]
  | held | serving =>
    cases b : q.poolB with
    | free => exact .inl (by simp only [Port.place, a, b])
    | held | serving => exact .inr (by simp only [Port.place, a, b])

/-- Settles O10, by the judgement of check. -/
theorem checkJudgedAfterForm : Obligations.CheckJudgedAfterForm := by
  intro dt p s run line quiet form
  have answer := execFrameEnd_quiet dt run line quiet
  rw [judgeFrame, if_neg (by rw [form]; exact Bool.false_ne_true)] at answer
  refine ⟨fun mismatch => ?_, fun matching => ?_⟩
  · rw [if_neg (by rw [Reception.checkPasses, beq_iff_eq]; exact mismatch), State.setPort_setPort, State.port_setPort] at answer
    exact answer
  · rw [if_pos (by rw [Reception.checkPasses, beq_iff_eq]; exact matching)] at answer
    refine ⟨_, answer, ?_⟩
    simp only [acceptFrame, State.port_setPort]
    exact place_counters _ _

/-! ## A good frame placed -/

/-- The class of a frame by the addresses it is judged against (R21). -/
theorem classify_serviceRequest_iff (hub : LoomAddr) (g1 g2 : Nat) (f : Frame) :
    classify hub g1 g2 f = .serviceRequest ↔ f.dest = hub ∧ f.kind = kindService := by
  unfold classify
  split
  · next here => split <;> simp_all
  · next other => split <;> simp_all

theorem classify_transit_iff (hub : LoomAddr) (g1 g2 : Nat) (f : Frame) :
    classify hub g1 g2 f = .transit ↔ ¬(f.dest = hub ∨ f.dest = 63 ∨ (g1 ≠ 0 ∧ f.dest.val = g1) ∨ (g2 ≠ 0 ∧ f.dest.val = g2)) := by
  unfold classify
  split
  · next here => split <;> simp [here]
  · next other =>
    simp only [other, false_or]
    split
    · next group => simp only [group, not_true, reduceCtorEq]
    · next group => simp only [group, not_false_eq_true]

/-- Settles O11, by the two pools. -/
theorem goodFrameIsPlaced : Obligations.GoodFrameIsPlaced := by
  intro dt p s run line quiet form passes pools
  have answer := execFrameEnd_quiet dt run line quiet
  rw [judgeFrame, if_neg (by rw [form]; exact Bool.false_ne_true), if_pos passes] at answer
  have first := s.tables.param_reads .group1
  have reads := first.trans (TableStore.param_reads _ .group2)
  have group1 : (s.tables.param .group1).2 = s.tables.peekParam .group1 := TableStore.param_value _ _
  have group2 : ((s.tables.param .group1).1.param .group2).2 = s.tables.peekParam .group2 := by rw [TableStore.param_value, first.peekParam]
  refine ⟨_, classify s.hubAddress (s.tables.peekParam .group1) (s.tables.peekParam .group2) (s.port p).reception.frame, answer,
    classify_serviceRequest_iff _ _ _ _, classify_transit_iff _ _ _ _, ?_⟩
  simp only [acceptFrame, State.setPort_tables, State.elapse_tables, group1, group2, State.withTables_tables, State.port_setPort]
  refine ⟨reads.1, by cases p <;> rfl, ?_⟩
  have hub : ((s.elapse dt).setPort p { s.port p with line := .idle, reception := .empty }).hubAddress = s.hubAddress := by cases p <;> rfl
  rw [hub]
  generalize classify s.hubAddress _ _ _ = cls
  generalize s.port p = q at pools ⊢
  rw [Port.PoolsWf] at pools
  cases a : q.poolA with
  | free => cases b : q.poolB <;> simp_all [Port.place, Port.handOver, Reception.empty]
  | held x => cases b : q.poolB <;> simp_all [Port.place, Port.handOver, Reception.empty]
  | serving x => cases b : q.poolB <;> simp_all [Port.place, Port.handOver, Reception.empty]

/-! ## The queue -/

/-- Settles O15, by the room in the queue. -/
theorem offeredFrameIsAppendedOrDropped : Obligations.OfferedFrameIsAppendedOrDropped := by
  intro q f b
  refine ⟨fun room => ⟨if_pos room, if_pos room⟩, fun full => ?_⟩
  have noRoom := Nat.not_lt.mpr full
  exact ⟨if_neg noRoom, if_neg noRoom⟩

/-- The payload replaced is that of the first entry that waits for the pod, and the entry keeps its place (R28). -/
theorem replacePayload_first {P : Fin 12} (payload : List Byte) {x : QueueEntry} (h : x.waitsFor P = true) (b : List QueueEntry) :
    ∀ a : List QueueEntry, (∀ y ∈ a, y.waitsFor P = false) →
      replacePayload P payload (a ++ x :: b) = a ++ { x with frame := { x.frame with payload := payload } } :: b := by
  intro a
  induction a with
  | nil => exact fun _ => if_pos h
  | cons y a ih =>
    intro before
    obtain ⟨first, rest⟩ := List.forall_mem_cons.mp before
    rw [List.cons_append, replacePayload, if_neg (by rw [first]; exact Bool.false_ne_true), ih rest, List.cons_append]

/-- A LAMPCMD for a pod one waits for takes its place (R28). -/
theorem coalesce_waiting {q : Port} {P : Fin 12} {a b : List QueueEntry} {x : QueueEntry} (f : Frame) (queue : q.queue = a ++ x :: b)
    (before : ∀ y ∈ a, y.waitsFor P = false) (waits : x.waitsFor P = true) :
    q.coalesce P f = some { q with queue := a ++ { x with frame := { x.frame with payload := f.payload } } :: b } := by
  have any : q.queue.any (·.waitsFor P) = true := List.any_eq_true.mpr ⟨x, by rw [queue]; simp, waits⟩
  rw [Port.coalesce, if_pos any, queue, replacePayload_first _ waits b a before]

theorem any_waitsFor_false {q : List QueueEntry} {P : Fin 12} (h : ∀ y ∈ q, y.waitsFor P = false) : ¬q.any (·.waitsFor P) = true := by
  rw [List.any_eq_true]
  rintro ⟨y, mem, waits⟩
  exact absurd ((h y mem).symm.trans waits) nofun

/-- With none waiting and room, a LAMPCMD is appended (R28). -/
theorem coalesce_room {q : Port} {P : Fin 12} (f : Frame) (none : ∀ y ∈ q.queue, y.waitsFor P = false) (room : q.queue.length < 8) :
    q.coalesce P f = some { q with queue := q.queue ++ [⟨f, false, some P, false⟩] } := by
  rw [Port.coalesce, if_neg (any_waitsFor_false none), if_pos room]
  rfl

/-- With none waiting and a full queue, nothing is queued (R28). -/
theorem coalesce_full {q : Port} {P : Fin 12} (f : Frame) (none : ∀ y ∈ q.queue, y.waitsFor P = false) (full : 8 ≤ q.queue.length) :
    q.coalesce P f = .none := by
  rw [Port.coalesce, if_neg (any_waitsFor_false none), if_neg (Nat.not_lt.mpr full)]

/-- Settles O16, by the three ways of a coalescing. -/
theorem lampcmdCoalesces : Obligations.LampcmdCoalesces := by
  intro s P e
  refine ⟨fun a x b queue before waits => ?_, fun none room => ?_, fun none full => ?_⟩
  · rw [offerLampcmd, coalesce_waiting _ queue before waits]
    rfl
  · rw [offerLampcmd, coalesce_room _ none room]
    rfl
  · rw [offerLampcmd, coalesce_full _ none full]

/-! ## Transit -/

/-- TRANSIT_COPY of a transit frame served (R24): copied or not by the flag of its direction. -/
theorem execTransitCopy_serving (dt : Time) {p : PortId} {s : State} {f : Frame} (serves : s.Serves p .transit f) :
    execTransitCopy dt p s = .next
      ((if s.tables.peekParam (transitFlag p) = 0 then (s.elapse dt).withTables (s.tables.param (transitFlag p)).1
        else ((s.elapse dt).withTables (s.tables.param (transitFlag p)).1).setPort p.other ((s.port p.other).offerCopy f)).releasePool p) := by
  obtain ⟨run, serving⟩ := serves
  refine (live_running run).trans (congrArg Host.Outcome.next ?_)
  simp only [State.port_elapse, serving, State.elapse_tables, TableStore.param_value, State.port_withTables]

theorem transitFlag_eq (p : PortId) : transitFlag p = match p with
    | .front => .transitFrontRear
    | .rear => .transitRearFront := by cases p <;> rfl

/-- Settles O18, by the transit flag as read. -/
theorem transitFrameIsCopiedOrDiscarded : Obligations.TransitFrameIsCopiedOrDiscarded := by
  intro dt p s f serves flag
  have flag_eq : flag = s.tables.peekParam (transitFlag p) := congrArg s.tables.peekParam (transitFlag_eq p).symm
  have reads := s.tables.param_reads (transitFlag p)
  refine ⟨_, execTransitCopy_serving dt serves, ?_, fun off => ?_, fun on => ?_⟩
  · split
    · cases p <;> exact reads.1
    · cases p <;> exact reads.1
  · rw [if_pos (flag_eq ▸ off)]
    cases p <;> rfl
  · rw [if_neg (flag_eq ▸ on)]
    cases p <;> rfl

end Sys2Proof.Machine.PortEvents
end

section
/-! PROOFS. The refill of a port (R29): what it makes of one dirty pod, and of all of them in turn. Then the freeing of a head, sent or abandoned
(R16, R25, R26), with its refill made, owed, or followed by the restart that waited for the reply (R31, R171). -/

namespace Sys2Proof.Machine.Refills

open PortEvents

/-! ## One pod of a refill -/

/-- A not-started LAMPCMD for a pod waits at a port with the pod's current levels (R29). -/
def Waits (s : State) (p : PortId) (P : Fin 12) : Prop :=
  ∃ x ∈ (s.port p).queue, x.pod = some P ∧ x.started = false ∧ x.frame.payload = lampPayload (s.lamps.pods[P]).levels

theorem waitsFor_iff (x : QueueEntry) (P : Fin 12) : x.waitsFor P = true ↔ x.started = false ∧ x.pod = some P := by
  simp only [QueueEntry.waitsFor, Bool.and_eq_true, Bool.not_eq_true', beq_iff_eq]

/-- A pod whose POD entry reads good and names the port with an address: the refill builds its frame (R29, R102). -/
def Served (s : State) (p : PortId) (P : Fin 12) : Prop := ∃ e, (s.tables.pod P).2 = some e ∧ e.port = p ∧ e.address ≠ 0

/-- What a refill makes of one pod and goes on: it stands where it is clean or its entry names the other port, it loses its mark where no frame can be
built, and its frame is queued otherwise (R29). -/
inductive PodTaken (p : PortId) (P : Fin 12) (s : State) : State → Prop where
  | clean (clean : (s.lamps.pods[P]).dirty = false) : PodTaken p P s s
  | other (e : PodEntry) (entry : (s.tables.pod P).2 = some e) (elsewhere : e.port ≠ p) : PodTaken p P s s
  | unbuilt (dirty : (s.lamps.pods[P]).dirty = true) (t : TableStore) (reads : s.tables.Reads t) (none : ∀ e, (s.tables.pod P).2 = some e → e.port = p ∧ e.address = 0) :
      PodTaken p P s ((s.withTables t).updPod P fun r => { r with dirty := false })
  | queued (dirty : (s.lamps.pods[P]).dirty = true) (e : PodEntry) (entry : (s.tables.pod P).2 = some e) (here : e.port = p) (addressed : e.address ≠ 0) (q : Port)
      (coalesced : (s.port p).coalesce P (lampFrame s P e.address) = some q) :
      PodTaken p P s ((s.setPort p q).updPod P fun r => { r with dirty := false })

/-- The refill stops at a dirty pod of the port that finds the queue full (R29). -/
structure Stops (p : PortId) (P : Fin 12) (s : State) : Prop where
  dirty : (s.lamps.pods[P]).dirty = true
  served : Served s p P
  full : 8 ≤ (s.port p).queue.length
  none : ∀ x ∈ (s.port p).queue, x.waitsFor P = false

/-- Coalescing queues no frame only at a full queue where none waits for the pod (R28). -/
theorem coalesce_none {q : Port} {P : Fin 12} {f : Frame} (h : q.coalesce P f = none) :
    8 ≤ q.queue.length ∧ ∀ x ∈ q.queue, x.waitsFor P = false := by
  unfold Port.coalesce at h
  split at h
  · cases h
  · next waiting =>
    split at h
    · cases h
    · next room => exact ⟨Nat.not_lt.mp room, fun x mem => eq_false_of_ne_true fun waits => waiting (List.any_eq_true.mpr ⟨x, mem, waits⟩)⟩

theorem withTables_pod {s : State} {P : Fin 12} {e : PodEntry} (h : (s.tables.pod P).2 = some e) : s.withTables (s.tables.pod P).1 = s := by
  rw [TableStore.pod_some h]
  rfl

/-- The refill takes one pod and goes on, or stops there (R29). -/
theorem refillFrom_cons (p : PortId) (P : Fin 12) (ps : List (Fin 12)) (s : State) :
    (∃ u, PodTaken p P s u ∧ refillFrom p (P :: ps) s = refillFrom p ps u) ∨ (Stops p P s ∧ refillFrom p (P :: ps) s = s) := by
  cases mark : (s.lamps.pods[P]).dirty with
  | false => exact .inl ⟨s, .clean mark, by simp only [refillFrom, mark, Bool.false_eq_true, if_false]⟩
  | true =>
    cases entry : (s.tables.pod P).2 with
    | none => exact .inl ⟨_, .unbuilt mark _ (s.tables.pod_reads P) (by simp [entry]), by simp only [refillFrom, mark, if_true, entry]⟩
    | some e =>
      have read := withTables_pod entry
      by_cases here : e.port = p
      · by_cases addressed : e.address = 0
        · refine .inl ⟨_, .unbuilt mark _ (s.tables.pod_reads P) ?_, by
            simp only [refillFrom, mark, if_true, entry, here, ne_eq, not_true, if_false, addressed]⟩
          rw [entry]
          rintro _ ⟨⟩
          exact ⟨here, addressed⟩
        · cases coalesced : (s.port p).coalesce P (lampFrame s P e.address) with
          | none =>
            obtain ⟨full, none⟩ := coalesce_none coalesced
            refine .inr ⟨⟨mark, ⟨e, entry, here, addressed⟩, full, none⟩, ?_⟩
            simp only [refillFrom, mark, if_true, entry, here, ne_eq, not_true, if_false, addressed, read, coalesced]
          | some q =>
            refine .inl ⟨_, .queued mark e entry here addressed q coalesced, ?_⟩
            simp only [refillFrom, mark, if_true, entry, here, ne_eq, not_true, if_false, addressed, read, coalesced]
      · exact .inl ⟨s, .other e entry here, by simp only [refillFrom, mark, if_true, entry, here, ne_eq, not_false_eq_true, read]⟩

/-! ## What coalescing does to a queue -/

/-- The entries of a queue in which one payload has been replaced: each stands, or was a waiting one and has the payload (R28). -/
theorem mem_replacePayload {P : Fin 12} {payload : List Byte} : ∀ {q : List QueueEntry} {x : QueueEntry}, x ∈ replacePayload P payload q →
    x ∈ q ∨ ∃ y ∈ q, y.waitsFor P = true ∧ x = { y with frame := { y.frame with payload := payload } } := by
  intro q
  induction q with
  | nil => exact fun h => .inl h
  | cons y q ih =>
    intro x mem
    unfold replacePayload at mem
    split at mem
    · next waits =>
      rcases List.mem_cons.mp mem with new | old
      · exact .inr ⟨y, List.mem_cons_self, waits, new⟩
      · exact .inl (List.mem_cons_of_mem y old)
    · rcases List.mem_cons.mp mem with first | later
      · exact .inl (first ▸ List.mem_cons_self)
      · rcases ih later with old | ⟨z, within, waits, new⟩
        · exact .inl (List.mem_cons_of_mem y old)
        · exact .inr ⟨z, List.mem_cons_of_mem y within, waits, new⟩

/-- An entry that does not wait for the pod stands through a replacement (R28). -/
theorem mem_replacePayload_of_mem {P : Fin 12} {payload : List Byte} : ∀ {q : List QueueEntry} {x : QueueEntry}, x ∈ q → x.waitsFor P = false →
    x ∈ replacePayload P payload q := by
  intro q
  induction q with
  | nil => exact fun h => absurd h List.not_mem_nil
  | cons y q ih =>
    intro x mem stands
    unfold replacePayload
    split
    · next waits =>
      rcases List.mem_cons.mp mem with first | later
      · rw [first, waits] at stands
        cases stands
      · exact List.mem_cons_of_mem _ later
    · rcases List.mem_cons.mp mem with first | later
      · exact first ▸ List.mem_cons_self
      · exact List.mem_cons_of_mem y (ih later stands)

/-- Where an entry waits for the pod, one has the payload afterwards (R28). -/
theorem replacePayload_has {P : Fin 12} {payload : List Byte} : ∀ {q : List QueueEntry}, q.any (·.waitsFor P) = true →
    ∃ x ∈ replacePayload P payload q, x.waitsFor P = true ∧ x.frame.payload = payload := by
  intro q
  induction q with
  | nil => exact fun h => absurd h Bool.false_ne_true
  | cons y q ih =>
    intro any
    unfold replacePayload
    split
    · next waits => exact ⟨_, List.mem_cons_self, waits, rfl⟩
    · next stands =>
      obtain ⟨x, mem, waits, carries⟩ := ih (by simpa [stands] using any)
      exact ⟨x, List.mem_cons_of_mem y mem, waits, carries⟩

/-- What a coalescing leaves of a queue: it grows, the entries that wait for other pods stand, none comes to wait for them, and a frame of the pod waits
with its payload (R28). -/
theorem coalesce_queue_facts {q r : Port} {P : Fin 12} {f : Frame} (h : q.coalesce P f = some r) :
    q.queue.length ≤ r.queue.length ∧ (∀ x ∈ q.queue, x.waitsFor P = false → x ∈ r.queue) ∧
      (∀ Q, Q ≠ P → (∀ x ∈ q.queue, x.waitsFor Q = false) → ∀ x ∈ r.queue, x.waitsFor Q = false) ∧
        ∃ x ∈ r.queue, x.waitsFor P = true ∧ x.frame.payload = f.payload := by
  unfold Port.coalesce at h
  split at h
  · next waiting =>
    cases h
    refine ⟨(replacePayload_length P f.payload q.queue).ge, fun x mem stands => mem_replacePayload_of_mem mem stands, fun Q _ none x mem => ?_,
      replacePayload_has waiting⟩
    rcases mem_replacePayload mem with old | ⟨y, within, _, new⟩
    · exact none x old
    · rw [new]
      exact none y within
  · split at h
    · cases h
      refine ⟨by simp [Port.append], fun x mem _ => List.mem_append_left _ mem, fun Q different none x mem => ?_,
        _, List.mem_append_right _ (List.mem_singleton_self _), by simp [QueueEntry.waitsFor], rfl⟩
      rcases List.mem_append.mp mem with old | new
      · exact none x old
      · rw [List.mem_singleton.mp new]
        simp [QueueEntry.waitsFor, Ne.symm different]
    · cases h

/-! ## What one pod's turn leaves -/

section Taken

variable {p : PortId} {P : Fin 12} {s u : State}

theorem PodTaken.reads (h : PodTaken p P s u) : s.tables.Reads u.tables := by
  cases h with
  | clean | other => exact .refl _
  | unbuilt dirty t reads => exact reads
  | queued dirty e entry here addressed q coalesced => rw [State.updPod_tables, State.setPort_tables]; exact .refl _

theorem PodTaken.port_other (h : PodTaken p P s u) : u.port p.other = s.port p.other := by
  cases h with
  | clean | other => rfl
  | unbuilt => rw [State.port_updPod, State.port_withTables]
  | queued => rw [State.port_updPod, State.port_setPort_other]

/-- Of the pods, the one taken alone can change, and in its mark alone. -/
theorem PodTaken.pods (h : PodTaken p P s u) (Q : Fin 12) :
    u.lamps.pods[Q] = { s.lamps.pods[Q] with dirty := (u.lamps.pods[Q]).dirty } ∧ (Q ≠ P → u.lamps.pods[Q] = s.lamps.pods[Q]) := by
  cases h with
  | clean | other => exact ⟨rfl, fun _ => rfl⟩
  | unbuilt | queued =>
    simp only [State.updPod_lamps, State.withTables_lamps, State.setPort_lamps, upd_get]
    by_cases taken : P = Q
    · simp [taken]
    · simp [taken]

/-- The pod taken is dirty afterwards exactly where it was and its entry names the other port (R29, log 15). -/
theorem PodTaken.dirty_iff (h : PodTaken p P s u) :
    (u.lamps.pods[P]).dirty = true ↔ (s.lamps.pods[P]).dirty = true ∧ ∃ e, (s.tables.pod P).2 = some e ∧ e.port ≠ p := by
  cases h with
  | clean clean => exact iff_of_false (by rw [clean]; exact Bool.false_ne_true) fun h => absurd (clean.symm.trans h.1) nofun
  | other e entry elsewhere => exact ⟨fun dirty => ⟨dirty, e, entry, elsewhere⟩, And.left⟩
  | unbuilt dirty t reads none =>
    refine iff_of_false (by simp) ?_
    rintro ⟨_, e, entry, elsewhere⟩
    exact elsewhere (none e entry).1
  | queued dirty e entry here =>
    refine iff_of_false (by simp) ?_
    rintro ⟨_, d, again, elsewhere⟩
    rw [entry] at again
    cases again
    exact elsewhere here

theorem PodTaken.length_le (h : PodTaken p P s u) : (s.port p).queue.length ≤ (u.port p).queue.length := by
  cases h with
  | clean | other => exact Nat.le_refl _
  | unbuilt => rw [State.port_updPod, State.port_withTables]
  | queued dirty e entry here addressed q coalesced =>
    rw [State.port_updPod, State.port_setPort]
    exact (coalesce_queue_facts coalesced).1

theorem PodTaken.levels (h : PodTaken p P s u) (Q : Fin 12) : (u.lamps.pods[Q]).levels = (s.lamps.pods[Q]).levels := by rw [(h.pods Q).1]

/-- A frame that waits for another pod waits on. -/
theorem PodTaken.waits (h : PodTaken p P s u) {Q : Fin 12} (different : Q ≠ P) (waiting : Waits s p Q) : Waits u p Q := by
  obtain ⟨x, mem, pod, started, payload⟩ := waiting
  have others : x.waitsFor P = false := by simp [QueueEntry.waitsFor, pod, different]
  have kept : x ∈ (u.port p).queue := by
    cases h with
    | clean | other => exact mem
    | unbuilt => rwa [State.port_updPod, State.port_withTables]
    | queued dirty e entry here addressed q coalesced =>
      rw [State.port_updPod, State.port_setPort]
      exact (coalesce_queue_facts coalesced).2.1 x mem others
  exact ⟨x, kept, pod, started, by rw [h.levels, payload]⟩

/-- No frame comes to wait for another pod. -/
theorem PodTaken.none_waits (h : PodTaken p P s u) {Q : Fin 12} (different : Q ≠ P) (none : ∀ x ∈ (s.port p).queue, x.waitsFor Q = false) :
    ∀ x ∈ (u.port p).queue, x.waitsFor Q = false := by
  cases h with
  | clean | other => exact none
  | unbuilt => rwa [State.port_updPod, State.port_withTables]
  | queued dirty e entry here addressed q coalesced =>
    rw [State.port_updPod, State.port_setPort]
    exact (coalesce_queue_facts coalesced).2.2.1 Q different none

/-- A dirty pod of the port that is taken has its current levels waiting (R29). -/
theorem PodTaken.served (h : PodTaken p P s u) (dirty : (s.lamps.pods[P]).dirty = true) (served : Served s p P) : Waits u p P := by
  obtain ⟨e, entry, here, addressed⟩ := served
  cases h with
  | clean clean => exact absurd (clean.symm.trans dirty) nofun
  | other d again elsewhere =>
    rw [entry] at again
    cases again
    exact absurd here elsewhere
  | unbuilt dirty t reads none => exact absurd (none e entry).2 addressed
  | queued _ d again _ _ q coalesced =>
    obtain ⟨x, mem, waits, payload⟩ := (coalesce_queue_facts coalesced).2.2.2
    obtain ⟨started, pod⟩ := (waitsFor_iff x P).mp waits
    refine ⟨x, by rwa [State.port_updPod, State.port_setPort], pod, started, payload.trans ?_⟩
    simp [lampFrame]

theorem PodTaken.served_iff (h : PodTaken p P s u) (Q : Fin 12) : Served u p Q ↔ Served s p Q := by
  unfold Served
  rw [h.reads.pod]

/-- A clean pod's turn changes nothing. -/
theorem PodTaken.eq_of_clean (h : PodTaken p P s u) (clean : (s.lamps.pods[P]).dirty = false) : u = s := by
  cases h with
  | clean | other => rfl
  | unbuilt dirty | queued dirty => exact absurd (clean.symm.trans dirty) nofun

end Taken

/-! ## All pods in turn -/

/-- The refill leaves the other port alone, and of the pods it can change the marks alone (R29). -/
theorem refillFrom_marks (p : PortId) : ∀ (ps : List (Fin 12)) (s : State),
    (refillFrom p ps s).port p.other = s.port p.other ∧
      ∀ Q : Fin 12, (refillFrom p ps s).lamps.pods[Q] = { s.lamps.pods[Q] with dirty := ((refillFrom p ps s).lamps.pods[Q]).dirty } ∧
        (((refillFrom p ps s).lamps.pods[Q]).dirty = true → (s.lamps.pods[Q]).dirty = true) ∧
        (Q ∉ ps → (refillFrom p ps s).lamps.pods[Q] = s.lamps.pods[Q]) := by
  intro ps
  induction ps with
  | nil => exact fun s => ⟨rfl, fun Q => ⟨rfl, id, fun _ => rfl⟩⟩
  | cons P ps ih =>
    intro s
    rcases refillFrom_cons p P ps s with ⟨u, taken, goesOn⟩ | ⟨_, stops⟩
    · obtain ⟨other, pods⟩ := ih u
      rw [goesOn]
      refine ⟨other.trans taken.port_other, fun Q => ?_⟩
      obtain ⟨record, mark, outside⟩ := pods Q
      obtain ⟨here, elsewhere⟩ := taken.pods Q
      refine ⟨record.trans (by rw [here]), fun dirty => ?_, fun out => ?_⟩
      · by_cases same : Q = P
        · subst same
          exact (taken.dirty_iff.mp (mark dirty)).1
        · rw [← elsewhere same]
          exact mark dirty
      · obtain ⟨different, out⟩ := List.ne_and_not_mem_of_not_mem_cons out
        exact (outside out).trans (elsewhere different)
    · rw [stops]
      exact ⟨rfl, fun Q => ⟨rfl, id, fun _ => rfl⟩⟩

/-- A queue never gets shorter in a refill, and a frame that waits for a pod not among those taken waits on. -/
theorem refillFrom_queue (p : PortId) : ∀ (ps : List (Fin 12)) (s : State),
    (s.port p).queue.length ≤ ((refillFrom p ps s).port p).queue.length ∧ ∀ Q, Q ∉ ps → Waits s p Q → Waits (refillFrom p ps s) p Q := by
  intro ps
  induction ps with
  | nil => exact fun s => ⟨Nat.le_refl _, fun _ _ => id⟩
  | cons P ps ih =>
    intro s
    rcases refillFrom_cons p P ps s with ⟨u, taken, goesOn⟩ | ⟨_, stops⟩
    · obtain ⟨length, waits⟩ := ih u
      rw [goesOn]
      refine ⟨taken.length_le.trans length, fun Q out waiting => ?_⟩
      obtain ⟨different, out⟩ := List.ne_and_not_mem_of_not_mem_cons out
      exact waits Q out (taken.waits different waiting)
    · rw [stops]
      exact ⟨Nat.le_refl _, fun _ _ => id⟩

/-- A pod of the other port keeps its mark (R29, log 15); and where the refill ends with room, the pods still dirty of those taken are no others. -/
theorem refillFrom_dirty (p : PortId) : ∀ (ps : List (Fin 12)), ps.Nodup → ∀ (s : State) (Q : Fin 12), Q ∈ ps →
    ((s.lamps.pods[Q]).dirty = true ∧ (∃ e, (s.tables.pod Q).2 = some e ∧ e.port ≠ p) → ((refillFrom p ps s).lamps.pods[Q]).dirty = true) ∧
      (((refillFrom p ps s).port p).queue.length < 8 → ((refillFrom p ps s).lamps.pods[Q]).dirty = true →
        (s.lamps.pods[Q]).dirty = true ∧ ∃ e, (s.tables.pod Q).2 = some e ∧ e.port ≠ p) := by
  intro ps
  induction ps with
  | nil => exact fun _ _ _ mem => absurd mem List.not_mem_nil
  | cons P ps ih =>
    intro distinct s Q mem
    obtain ⟨new, distinct⟩ := List.nodup_cons.mp distinct
    rcases refillFrom_cons p P ps s with ⟨u, taken, goesOn⟩ | ⟨stop, stops⟩
    · rw [goesOn]
      rcases List.mem_cons.mp mem with first | later
      · subst first
        rw [((refillFrom_marks p ps u).2 Q).2.2 new]
        exact ⟨taken.dirty_iff.mpr, fun _ => taken.dirty_iff.mp⟩
      · have different : Q ≠ P := fun same => new (same ▸ later)
        have rest := ih distinct u Q later
        rwa [(taken.pods Q).2 different, taken.reads.pod] at rest
    · rw [stops]
      exact ⟨And.left, fun room => absurd room (Nat.not_lt.mpr stop.full)⟩

/-- A dirty pod of the port that has lost its mark has its current levels waiting (R29). -/
theorem refillFrom_served (p : PortId) : ∀ (ps : List (Fin 12)), ps.Nodup → ∀ (s : State) (Q : Fin 12), Q ∈ ps → (s.lamps.pods[Q]).dirty = true →
    Served s p Q → ((refillFrom p ps s).lamps.pods[Q]).dirty = false → Waits (refillFrom p ps s) p Q := by
  intro ps
  induction ps with
  | nil => exact fun _ _ _ mem => absurd mem List.not_mem_nil
  | cons P ps ih =>
    intro distinct s Q mem dirty served
    obtain ⟨new, distinct⟩ := List.nodup_cons.mp distinct
    rcases refillFrom_cons p P ps s with ⟨u, taken, goesOn⟩ | ⟨_, stops⟩
    · rw [goesOn]
      rcases List.mem_cons.mp mem with first | later
      · subst first
        exact fun _ => (refillFrom_queue p ps u).2 Q new (taken.served dirty served)
      · have different : Q ≠ P := fun same => new (same ▸ later)
        exact ih distinct u Q later (by rwa [(taken.pods Q).2 different]) ((taken.served_iff Q).mpr served)
    · rw [stops]
      exact fun clean => absurd (clean.symm.trans dirty) nofun

/-- A dirty pod of the port that finds the queue full, with no frame of its own waiting, stops the refill: it and every later pod keep their marks
(R29). -/
theorem refillFrom_full (p : PortId) : ∀ (ps : List (Fin 12)), ps.Pairwise (· < ·) → ∀ (s : State) (P : Fin 12), P ∈ ps →
    (s.lamps.pods[P]).dirty = true → Served s p P → 8 ≤ (s.port p).queue.length → (∀ x ∈ (s.port p).queue, x.waitsFor P = false) →
    ∀ Q : Fin 12, P ≤ Q → (refillFrom p ps s).lamps.pods[Q] = s.lamps.pods[Q] := by
  intro ps
  induction ps with
  | nil => exact fun _ _ _ mem => absurd mem List.not_mem_nil
  | cons R ps ih =>
    intro rising s P mem dirty served full none Q later
    obtain ⟨first, rising⟩ := List.pairwise_cons.mp rising
    rcases refillFrom_cons p R ps s with ⟨u, taken, goesOn⟩ | ⟨_, stops⟩
    · rw [goesOn]
      rcases List.mem_cons.mp mem with here | after
      · subst here
        obtain ⟨e, entry, here, addressed⟩ := served
        have refused := coalesce_full (lampFrame s P e.address) none full
        cases taken with
        | clean clean => exact absurd (clean.symm.trans dirty) nofun
        | other d again elsewhere =>
          rw [entry] at again
          cases again
          exact absurd here elsewhere
        | unbuilt _ t reads none => exact absurd (none e entry).2 addressed
        | queued _ d again _ _ q coalesced =>
          rw [entry] at again
          cases again
          exact absurd (refused.symm.trans coalesced) nofun
      · have before : R < P := first P after
        have differs : P ≠ R := before.ne'
        have differsQ : Q ≠ R := (before.trans_le later).ne'
        rw [ih rising u P after (by rwa [(taken.pods P).2 differs]) ((taken.served_iff P).mpr served) (full.trans taken.length_le)
          (taken.none_waits differs none) Q later, (taken.pods Q).2 differsQ]
    · rw [stops]

/-- The lowest dirty pod, of the port, has its levels waiting where the queue has room (R29). -/
theorem refillFrom_lowest (p : PortId) : ∀ (ps : List (Fin 12)), ps.Pairwise (· < ·) → ∀ (s : State) (P : Fin 12), P ∈ ps →
    (s.lamps.pods[P]).dirty = true → Served s p P → (∀ Q : Fin 12, (s.lamps.pods[Q]).dirty = true → P ≤ Q) → (s.port p).queue.length < 8 →
    Waits (refillFrom p ps s) p P := by
  intro ps
  induction ps with
  | nil => exact fun _ _ _ mem => absurd mem List.not_mem_nil
  | cons R ps ih =>
    intro rising s P mem dirty served lowest room
    obtain ⟨first, rising⟩ := List.pairwise_cons.mp rising
    rcases refillFrom_cons p R ps s with ⟨u, taken, goesOn⟩ | ⟨stop, _⟩
    · rw [goesOn]
      rcases List.mem_cons.mp mem with here | after
      · subst here
        exact (refillFrom_queue p ps u).2 P (fun again => absurd (first P again) (lt_irrefl P)) (taken.served dirty served)
      · have clean : (s.lamps.pods[R]).dirty = false := eq_false_of_ne_true fun dirty => absurd (first P after) (not_lt.mpr (lowest R dirty))
        rw [taken.eq_of_clean clean]
        exact ih rising s P after dirty served lowest room
    · exact absurd room (Nat.not_lt.mpr stop.full)

/-- With no dirty pod a refill changes nothing (R29). -/
theorem refillFrom_clean (p : PortId) : ∀ (ps : List (Fin 12)) (s : State), (∀ Q : Fin 12, (s.lamps.pods[Q]).dirty = false) → refillFrom p ps s = s := by
  intro ps
  induction ps with
  | nil => exact fun _ _ => rfl
  | cons P ps ih =>
    intro s clean
    rcases refillFrom_cons p P ps s with ⟨u, taken, goesOn⟩ | ⟨_, stops⟩
    · rw [goesOn, taken.eq_of_clean (clean P), ih s clean]
    · exact stops

/-! ## The refill of a port -/

theorem pods_rising : (List.finRange 12).Pairwise (· < ·) := List.pairwise_lt_finRange 12

/-- A refill touches no level, so that what waits is what the pod's levels were (R29). -/
theorem refill_waits_iff (s : State) (p : PortId) (P : Fin 12) : Waits (refill s p) p P ↔
    ∃ x ∈ ((refill s p).port p).queue, x.pod = some P ∧ x.started = false ∧ x.frame.payload = lampPayload (s.lamps.pods[P]).levels := by
  have levels : ((refill s p).lamps.pods[P]).levels = (s.lamps.pods[P]).levels := by
    rw [refill, ((refillFrom_marks p (List.finRange 12) s).2 P).1]
  rw [Waits, levels]

/-- Settles O17, by the pods in turn. -/
theorem refillServesDirtyPods : Obligations.RefillServesDirtyPods := by
  intro s p t
  obtain ⟨other, marks⟩ := refillFrom_marks p (List.finRange 12) s
  have dirty (P : Fin 12) := refillFrom_dirty p _ (List.nodup_finRange 12) s P (List.mem_finRange P)
  refine ⟨other, (refill_touches s p).2, fun P => ⟨(marks P).1, (marks P).2.1⟩, fun room P => ⟨(dirty P).2 room, (dirty P).1⟩,
    fun P e marked entry here addressed => ⟨?_, fun full none Q later => ?_⟩⟩
  · exact fun clean => (refill_waits_iff s p P).mp
      (refillFrom_served p _ (List.nodup_finRange 12) s P (List.mem_finRange P) marked ⟨e, entry, here, addressed⟩ clean)
  · exact congrArg PodRecord.dirty
      (refillFrom_full p _ pods_rising s P (List.mem_finRange P) marked ⟨e, entry, here, addressed⟩ full none Q later)

/-! ## The freeing of a head -/

/-- A change of the queue of one port and of the pods, said of that port and those pods. -/
theorem touchesPods_eq {s u : State} {p : PortId} (h : TouchesPods s u) (other : u.port p.other = s.port p.other) :
    u.port p = { s.port p with queue := (u.port p).queue } ∧
      u = { s.setPort p (u.port p) with tables := u.tables, lamps := { s.lamps with pods := u.lamps.pods } } := by
  obtain ⟨⟨t, a, b, l, changed, _, fade⟩, loads⟩ := h
  have lamps : u.lamps = { s.lamps with pods := u.lamps.pods } := by
    rw [changed] at loads ⊢
    simp only at fade loads ⊢
    rw [← loads, ← fade]
  cases p with
  | front =>
    have rear : u.rear = s.rear := other
    refine ⟨by rw [changed]; rfl, ?_⟩
    rw [← lamps, State.setPort, ← rear, changed]
    rfl
  | rear =>
    have front : u.front = s.front := other
    refine ⟨by rw [changed]; rfl, ?_⟩
    rw [← lamps, State.setPort, ← front, changed]
    rfl

theorem setRefillOwed_setPort (s : State) (p : PortId) (q : Port) (b : Bool) :
    (s.setPort p q).setRefillOwed p b = s.setPort p { q with refillOwed := b } := by
  rw [State.setRefillOwed, State.port_setPort, State.setPort_setPort]

/-- The restart made once a head has left its queue and the refill is made or owed: every block set up, the store, the straps and the counters kept
(R31, R171, log 16). -/
structure Restarted (v t : State) : Prop where
  reads : v.tables.ReadsOnly t.tables
  setUp : t.SetUp
  counters : ∀ r, (t.port r).counters = (v.port r).counters
  power : t.power = v.power
  straps : t.straps = v.straps
  nv : t.nv = v.nv
  miss : t.routes.routeMiss = v.routes.routeMiss
  report : t.routes.reportError = v.routes.reportError
  lost : t.events.edgeLost = v.events.edgeLost
  fault : t.engine.chainFault = v.engine.chainFault
  slots : t.engine.slotFull = v.engine.slotFull

theorem restarted_of_touches {v u : State} {p : PortId} {b : Bool} (h : TouchesPods (v.setRefillOwed p b) u) : Restarted v (resetBlocks true u) := by
  have counters (r : PortId) : (u.port r).counters = (v.port r).counters := by
    obtain ⟨⟨t, x, y, l, rfl, _⟩, _⟩ := h
    cases p <;> cases r <;> rfl
  obtain ⟨⟨t, x, y, l, refilled, read, _⟩, _⟩ := h
  obtain ⟨_, _, _, power, straps, nv, _, _, reads, _, _, miss, report, lost, fault, slots⟩ := resetBlocks_keeps true u
  have setUp := ResetSetUp.resetBlocks_setUp true u
  have kept := Restart.resetBlocks_portCounters u
  have tables : v.tables.Reads u.tables := by
    rw [State.setRefillOwed_tables] at read
    rw [refilled]
    exact read
  generalize resetBlocks true u = w at *
  refine ⟨(tables.trans reads).1, setUp, fun r => (kept r).trans (counters r), power.trans ?_, straps.trans ?_, nv.trans ?_, miss.trans ?_, report.trans ?_,
    lost.trans ?_, fault.trans ?_, slots.trans ?_⟩
  all_goals
    rw [refilled]
    cases p <;> rfl

/-- The refill made of a freeing, or owed (R29, log 29). -/
def refilledBy (p : PortId) : Freeing → State → State
  | .withRefill _ => fun s => settleRefill s p
  | .alone _ => fun s => s.setRefillOwed p true
  | .refill _ => id

theorem refilledBy_touches {p : PortId} {part : Freeing} (h : part = .withRefill p ∨ part = .alone p) (v : State) :
    ∃ b, TouchesPods (v.setRefillOwed p b) (refilledBy p part v) := by
  rcases h with rfl | rfl
  · exact ⟨false, settleRefill_touches v p⟩
  · exact ⟨true, .refl _⟩

/-- The head frame's port once it is sent: TX-SENT counts, and the line is IDLE (R16, R25). -/
def sentPort (q : Port) (now : Time) (rest : List QueueEntry) : Port :=
  { q with line := .idle, quietFrom := now, queue := rest, sentBytes := 0, counters := { q.counters with txSent := q.counters.txSent.bump } }

/-- The head frame's port once it is abandoned: TX-COLLIDE counts, and the line is SKIPPING (R16, R26). -/
def abandonedPort (q : Port) (now : Time) (rest : List QueueEntry) : Port :=
  { q with line := .skipping, quietFrom := now, queue := rest, sentBytes := 0, counters := { q.counters with txCollide := q.counters.txCollide.bump } }

section Freed

variable {s : State} {p : PortId} {e : QueueEntry} {rest : List QueueEntry} {part : Freeing}

theorem execFrameSent_head (dt : Time) (run : s.power = .running) (line : (s.port p).line = .transmitting) (queue : (s.port p).queue = e :: rest)
    (h : part = .withRefill p ∨ part = .alone p) :
    execFrameSent dt part s =
      .next (afterFreeing e (refilledBy p part ((s.elapse dt).setPort p (sentPort (s.port p) (s.now + dt) rest)))) := by
  refine (live_running run).trans (congrArg Host.Outcome.next ?_)
  have freed (refilled : State → State) : sendHead (s.elapse dt) p refilled =
      afterFreeing e (refilled ((s.elapse dt).setPort p (sentPort (s.port p) (s.now + dt) rest))) := by
    rw [sendHead_head refilled (by rwa [State.port_elapse]) (by rwa [State.port_elapse]), State.port_elapse]
    rfl
  rcases h with rfl | rfl
  · exact freed _
  · exact freed _

theorem execCollision_head (dt : Time) (run : s.power = .running) (line : (s.port p).line = .transmitting) (queue : (s.port p).queue = e :: rest)
    (h : part = .withRefill p ∨ part = .alone p) :
    execCollision dt part s =
      .next (afterFreeing e (refilledBy p part (markDirty ((s.elapse dt).setPort p (abandonedPort (s.port p) (s.now + dt) rest)) e.pod))) := by
  refine (live_running run).trans (congrArg Host.Outcome.next ?_)
  have freed (refilled : State → State) : abandonHead (s.elapse dt) p refilled =
      afterFreeing e (refilled (markDirty ((s.elapse dt).setPort p (abandonedPort (s.port p) (s.now + dt) rest)) e.pod)) := by
    rw [abandonHead_head refilled (by rwa [State.port_elapse]) (by rwa [State.port_elapse]), State.port_elapse]
    rfl
  rcases h with rfl | rfl
  · exact freed _
  · exact freed _

end Freed

/-- The owed refill made, or the clock moved alone where none is owed (log 29). -/
theorem live_owedRefill {dt : Time} {s : State} {p : PortId} (run : s.power = .running) :
    ((s.port p).refillOwed = true →
      live dt s (fun s => owedRefill s p) = .next (refill ((s.elapse dt).setPort p { s.port p with refillOwed := false }) p)) ∧
    ((s.port p).refillOwed = false → live dt s (fun s => owedRefill s p) = .next (s.elapse dt)) := by
  refine ⟨fun owed => (live_running run).trans (congrArg Host.Outcome.next ?_), fun none => (live_running run).trans (congrArg Host.Outcome.next ?_)⟩
  · rw [owedRefill_owed (by rwa [State.port_elapse]), State.port_elapse]
  · exact owedRefill_none (by rwa [State.port_elapse])

/-- What the refill of a freed port leaves (R29). -/
structure Refilled (v : State) (p : PortId) (t : State) : Prop where
  reads : v.tables.ReadsOnly t.tables
  port : t.port p = { v.port p with queue := (t.port p).queue }
  rest : t = { v.setPort p (t.port p) with tables := t.tables, lamps := { v.lamps with pods := t.lamps.pods } }
  pods : ∀ P : Fin 12, t.lamps.pods[P] = { v.lamps.pods[P] with dirty := (t.lamps.pods[P]).dirty }
  clean : (∀ P : Fin 12, (v.lamps.pods[P]).dirty = false) → t = v

theorem refill_refilled (v : State) (p : PortId) : Refilled v p (refill v p) := by
  have touches := refill_touches v p
  obtain ⟨other, marks⟩ := refillFrom_marks p (List.finRange 12) v
  obtain ⟨port, rest⟩ := touchesPods_eq touches other
  refine ⟨?_, port, rest, fun P => (marks P).1, refillFrom_clean p _ v⟩
  obtain ⟨⟨_, _, _, _, refilled, reads, _⟩, _⟩ := touches
  rw [refilled]
  exact reads.1

/-- Settles O13. -/
theorem frameSentFreesTheHead : Obligations.FrameSentFreesTheHead := by
  intro dt p s run
  refine ⟨?_, (live_owedRefill run).1, (live_owedRefill run).2⟩
  intro e rest line queue freed
  refine ⟨fun plain => ?_, fun waited part h => ?_⟩
  · have freed_eq (owed : Bool) : ((s.elapse dt).setPort p (sentPort (s.port p) (s.now + dt) rest)).setRefillOwed p owed = freed owed :=
      setRefillOwed_setPort _ _ _ _
    have answer (part : Freeing) (h : part = .withRefill p ∨ part = .alone p) := execFrameSent_head dt run line queue h
    simp only [afterFreeing_plain _ plain] at answer
    refine ⟨(answer _ (.inr rfl)).trans (congrArg Host.Outcome.next (freed_eq true)), _,
      (answer _ (.inl rfl)).trans (congrArg (fun u => Host.Outcome.next (refill u p)) (freed_eq false)), rfl, ?_⟩
    have refilled := refill_refilled (freed false) p
    generalize refill (freed false) p = t at refilled ⊢
    have tables : (freed false).tables = s.tables := State.setPort_tables _ _ _
    have lamps : (freed false).lamps = s.lamps := State.setPort_lamps _ _ _
    have port : (freed false).port p = _ := State.port_setPort _ _ _
    refine ⟨tables ▸ refilled.reads, refilled.port.trans (by rw [port]), refilled.rest.trans ?_, fun P => lamps ▸ refilled.pods P, fun clean => ?_⟩
    · rw [lamps, State.setPort_setPort]
    · rw [refilled.clean (by rwa [lamps])]
      exact ⟨congrArg Port.queue port, tables, lamps⟩
  · have answer := execFrameSent_head dt run line queue h
    rw [afterFreeing_restart _ waited] at answer
    obtain ⟨b, touches⟩ := refilledBy_touches h ((s.elapse dt).setPort p (sentPort (s.port p) (s.now + dt) rest))
    have restarted := restarted_of_touches touches
    refine ⟨_, answer, ?_⟩
    generalize resetBlocks true _ = t at restarted ⊢
    obtain ⟨reads, setUp, counters, power, straps, nv, miss, report, lost, fault, slots⟩ := restarted
    simp only [State.setPort_tables, State.elapse_tables, State.setPort_power, State.setPort_straps, State.setPort_nv, State.setPort_routes,
      State.setPort_events, State.setPort_engine, State.elapse_power, State.elapse_straps, State.elapse_nv, State.elapse_routes,
      State.elapse_events, State.elapse_engine] at reads power straps nv miss report lost fault slots
    refine ⟨reads, setUp, (counters p).trans (by rw [State.port_setPort, sentPort]), (counters p.other).trans ?_, power.trans run, straps, nv, miss, report,
      lost, fault, slots⟩
    rw [State.port_setPort_other, State.port_elapse]

/-! ## A pod marked dirty -/

theorem markDirty_tables (s : State) (pod : Option (Fin 12)) : (markDirty s pod).tables = s.tables := by cases pod <;> rfl

theorem markDirty_port (s : State) (pod : Option (Fin 12)) (p : PortId) : (markDirty s pod).port p = s.port p := by
  cases pod with
  | some P => exact State.port_updPod s P _ p
  | none => rfl

/-- The pod of an abandoned LAMPCMD is marked, and no record changes otherwise (R26). -/
theorem markDirty_pods (s : State) (pod : Option (Fin 12)) (Q : Fin 12) :
    (markDirty s pod).lamps.pods[Q] = { s.lamps.pods[Q] with dirty := (s.lamps.pods[Q]).dirty || pod == some Q } := by
  cases pod with
  | none => simp [markDirty]
  | some P =>
    rw [markDirty, State.updPod_lamps, upd_get]
    by_cases same : P = Q
    · simp [same]
    · simp [same, beq_eq_false_iff_ne.mpr same]

theorem markDirty_setRefillOwed (s : State) (pod : Option (Fin 12)) (p : PortId) (b : Bool) :
    (markDirty s pod).setRefillOwed p b = markDirty (s.setRefillOwed p b) pod := by cases pod <;> cases p <;> rfl

/-- Once the store and the pods are rewritten, a mark made before them is gone. -/
theorem markDirty_setPort_pods (s : State) (pod : Option (Fin 12)) (p : PortId) (q : Port) (t : TableStore) (pods : Vector PodRecord 12) :
    ({ (markDirty s pod).setPort p q with tables := t, lamps := { (markDirty s pod).lamps with pods := pods } } : State) =
      { s.setPort p q with tables := t, lamps := { s.lamps with pods := pods } } := by cases pod <;> cases p <;> rfl

/-- The mark of an abandoned LAMPCMD's pod after the refill: it stays where the pod's entry names the other port, and otherwise stays or its levels wait; they
wait for certain where no lower pod is dirty and the queue has room (R26, R29). -/
theorem refill_marked (s : State) (p : PortId) (P : Fin 12) {E : PodEntry} (entry : (s.tables.pod P).2 = some E) :
    (E.port ≠ p → ((refill (markDirty s (some P)) p).lamps.pods[P]).dirty = true) ∧
      (E.port = p → E.address ≠ 0 →
        (((refill (markDirty s (some P)) p).lamps.pods[P]).dirty = true ∨ Waits (refill (markDirty s (some P)) p) p P) ∧
        ((∀ Q : Fin 12, (s.lamps.pods[Q]).dirty = true → P ≤ Q) → (s.port p).queue.length < 8 → Waits (refill (markDirty s (some P)) p) p P)) := by
  have marks (Q : Fin 12) : ((markDirty s (some P)).lamps.pods[Q]).dirty = ((s.lamps.pods[Q]).dirty || some P == some Q) :=
    (congrArg PodRecord.dirty (markDirty_pods s (some P) Q)).trans rfl
  have dirty : ((markDirty s (some P)).lamps.pods[P]).dirty = true := by rw [marks, beq_self_eq_true, Bool.or_true]
  have entry' : ((markDirty s (some P)).tables.pod P).2 = some E := by rwa [markDirty_tables]
  have mem := List.mem_finRange P
  refine ⟨fun elsewhere => ?_, fun here addressed => ⟨?_, fun lowest room => ?_⟩⟩
  · exact (refillFrom_dirty p _ (List.nodup_finRange 12) _ P mem).1 ⟨dirty, E, entry', elsewhere⟩
  · cases after : ((refill (markDirty s (some P)) p).lamps.pods[P]).dirty with
    | true => exact .inl rfl
    | false => exact .inr (refillFrom_served p _ (List.nodup_finRange 12) _ P mem dirty ⟨E, entry', here, addressed⟩ after)
  · refine refillFrom_lowest p _ pods_rising _ P mem dirty ⟨E, entry', here, addressed⟩ (fun Q marked => ?_) (by rwa [markDirty_port])
    rw [marks, Bool.or_eq_true, beq_iff_eq, Option.some.injEq] at marked
    exact marked.elim (lowest Q) fun same => same.le

/-- Settles O14. -/
theorem collisionAbandonsTheHead : Obligations.CollisionAbandonsTheHead := by
  intro dt p s run
  refine ⟨?_, (live_owedRefill run).1, (live_owedRefill run).2⟩
  intro e rest line queue freed marked
  have marked_eq (owed : Bool) : marked owed = markDirty (freed owed) e.pod := by
    cases pod : e.pod <;> simp only [marked, pod] <;> rfl
  refine ⟨fun plain => ?_, fun waited part h => ?_⟩
  · have freed_eq (owed : Bool) :
        (markDirty ((s.elapse dt).setPort p (abandonedPort (s.port p) (s.now + dt) rest)) e.pod).setRefillOwed p owed = marked owed := by
      rw [markDirty_setRefillOwed, setRefillOwed_setPort, marked_eq]
      rfl
    have answer (part : Freeing) (h : part = .withRefill p ∨ part = .alone p) := execCollision_head dt run line queue h
    simp only [afterFreeing_plain _ plain] at answer
    refine ⟨(answer _ (.inr rfl)).trans (congrArg Host.Outcome.next (freed_eq true)), _,
      (answer _ (.inl rfl)).trans (congrArg (fun u => Host.Outcome.next (refill u p)) (freed_eq false)), rfl, ?_⟩
    have tables : (freed false).tables = s.tables := State.setPort_tables _ _ _
    have lamps : (freed false).lamps = s.lamps := State.setPort_lamps _ _ _
    have port : (freed false).port p = _ := State.port_setPort _ _ _
    have refilled := refill_refilled (marked false) p
    rw [marked_eq] at refilled ⊢
    have fate (P : Fin 12) (E : PodEntry) (pod : e.pod = some P) (entry : (s.tables.pod P).2 = some E) := by
      have := refill_marked (freed false) p P (E := E) (by rwa [tables])
      rw [← pod, refill_waits_iff, markDirty_pods, port, lamps] at this
      exact this
    generalize refill (markDirty (freed false) e.pod) p = t at refilled fate ⊢
    refine ⟨?_, refilled.port.trans (by rw [markDirty_port, port]), refilled.rest.trans ?_, fun P => (refilled.pods P).trans ?_, fun clean none => ?_, fate⟩
    · have reads := refilled.reads
      rwa [markDirty_tables, tables] at reads
    · rw [markDirty_setPort_pods, lamps, State.setPort_setPort]
    · rw [markDirty_pods, lamps]
    · rw [none] at refilled
      rw [refilled.clean fun P => lamps ▸ clean P]
      exact ⟨congrArg Port.queue port, tables, lamps⟩
  · have answer := execCollision_head dt run line queue h
    rw [afterFreeing_restart _ waited] at answer
    obtain ⟨b, touches⟩ := refilledBy_touches h (markDirty ((s.elapse dt).setPort p (abandonedPort (s.port p) (s.now + dt) rest)) e.pod)
    have restarted := restarted_of_touches touches
    refine ⟨_, answer, ?_⟩
    generalize resetBlocks true _ = t at restarted ⊢
    obtain ⟨reads, setUp, counters, power, straps, nv, miss, report, lost, fault, slots⟩ := restarted
    have marked_same {α : Type} (f : State → α) (same : ∀ u P g, f (State.updPod u P g) = f u) (u : State) : f (markDirty u e.pod) = f u := by
      cases e.pod with
      | some P => exact same u P _
      | none => rfl
    rw [markDirty_tables, State.setPort_tables, State.elapse_tables] at reads
    simp only [markDirty_port] at counters
    rw [marked_same State.power fun _ _ _ => rfl, State.setPort_power] at power
    rw [marked_same State.straps fun _ _ _ => rfl, State.setPort_straps] at straps
    rw [marked_same State.nv fun _ _ _ => rfl, State.setPort_nv] at nv
    rw [marked_same State.routes fun _ _ _ => rfl, State.setPort_routes] at miss report
    rw [marked_same State.events fun _ _ _ => rfl, State.setPort_events] at lost
    rw [marked_same State.engine fun _ _ _ => rfl, State.setPort_engine] at fault slots
    refine ⟨reads, setUp, (counters p).trans (by rw [State.port_setPort, abandonedPort]), (counters p.other).trans ?_, power.trans run, straps, nv, miss,
      report, lost, fault, slots⟩
    rw [State.port_setPort_other, State.port_elapse]

end Sys2Proof.Machine.Refills
end

section
/-! PROOFS. READ-TABLE, READ-STATE and READ-COUNTERS (R162 to R165, R182): the range each is judged on, the bytes of each record, and the counters taken
and cleared. -/

namespace Sys2Proof.Machine.ServiceReads

open ServiceRequests

/-! ## The commands, taken by an idle engine -/

section Taken

variable {p : PortId} {s : State} {f : Frame}

/-- READ-TABLE is performed by an idle engine (R162). -/
theorem execReadTable_asked (dt : Time) {area : Byte} {index count : Nat} (serves : s.Serves p .serviceRequest f)
    (reads : decodeRequest f.payload = some (.readTable area index count)) (idle : s.service = .idle) :
    execReadTable dt p s = .next ((readTable (s.elapse dt) p f area index count).releasePool p) := by
  have ready : (s.elapse dt).service = .idle := idle
  simp only [execReadTable, live_running serves.1, State.port_elapse, request_of_decode serves reads, unlessBusy_idle ready]

/-- READ-STATE of a record it names replies the record (R163). -/
theorem execReadState_some (dt : Time) {object index : Nat} {data : List Byte} (serves : s.Serves p .serviceRequest f)
    (reads : decodeRequest f.payload = some (.readState object index)) (idle : s.service = .idle)
    (names : recordOf (s.elapse dt) object index = some data) :
    execReadState dt p s = .next ((answer (s.elapse dt) p f .done data).releasePool p) := by
  have ready : (s.elapse dt).service = .idle := idle
  simp only [execReadState, live_running serves.1, State.port_elapse, request_of_decode serves reads, unlessBusy_idle ready, names]

/-- READ-STATE that names no record replies BAD-RANGE (R163). -/
theorem execReadState_none (dt : Time) {object index : Nat} (serves : s.Serves p .serviceRequest f)
    (reads : decodeRequest f.payload = some (.readState object index)) (idle : s.service = .idle)
    (names : recordOf (s.elapse dt) object index = none) :
    execReadState dt p s = .next ((answer (s.elapse dt) p f .badRange []).releasePool p) := by
  have ready : (s.elapse dt).service = .idle := idle
  simp only [execReadState, live_running serves.1, State.port_elapse, request_of_decode serves reads, unlessBusy_idle ready, names]

/-- READ-COUNTERS is performed by an idle engine (R164). -/
theorem execReadCounters_asked (dt : Time) {group clear : Nat} (serves : s.Serves p .serviceRequest f)
    (reads : decodeRequest f.payload = some (.readCounters group clear)) (idle : s.service = .idle) :
    execReadCounters dt p s = .next ((readCounters (s.elapse dt) p f group clear).releasePool p) := by
  have ready : (s.elapse dt).service = .idle := idle
  simp only [execReadCounters, live_running serves.1, State.port_elapse, request_of_decode serves reads, unlessBusy_idle ready]

end Taken

/-! ## The words of a range -/

/-- A range lies within the area its byte names (R162, R166). -/
theorem rangeOf_area {area : Byte} {a : Area} (named : Area.ofByte area = some a) {index count : Nat} (inside : index + count ≤ a.words) :
    rangeOf area index count = some (a, a.base + index) := by
  simp only [rangeOf, named, if_pos inside, address]

/-- A byte that names no area has no range, and no area one that leaves it (R162, R166). -/
theorem rangeOf_outside {area : Byte} {index count : Nat} (outside : Area.ofByte area = none ∨ ∃ a, Area.ofByte area = some a ∧ a.words < index + count) :
    rangeOf area index count = none := by
  rcases outside with none | ⟨a, named, beyond⟩
  · simp only [rangeOf, none]
  · simp only [rangeOf, named, if_neg (Nat.not_le.mpr beyond)]

/-- A READ-TABLE within range replies its words and their flags (R162). -/
theorem readTable_inRange (s : State) (p : PortId) (f : Frame) {area : Byte} {a : Area} (named : Area.ofByte area = some a) {index count : Nat}
    (least : 1 ≤ count) (most : count ≤ 6) (inside : index + count ≤ a.words) :
    readTable s p f area index count = answer s p f .done (readTableData s.tables (a.base + index) count) := by
  simp only [readTable, rangeOf_area named inside, if_pos (And.intro least most)]

/-- A READ-TABLE of no words, of more than six, or beyond its area replies BAD-RANGE (R162). -/
theorem readTable_outOfRange (s : State) (p : PortId) (f : Frame) {area : Byte} {index count : Nat}
    (bad : ¬(1 ≤ count ∧ count ≤ 6) ∨ rangeOf area index count = none) : readTable s p f area index count = answer s p f .badRange [] := by
  rcases bad with count | range
  · unfold readTable
    split
    · exact if_neg count
    · rfl
  · simp only [readTable, range]

/-- The data of a READ-TABLE reply: the flags, then each word's two bytes (R182). -/
theorem readTableData_eq (t : TableStore) (first count : Nat) :
    readTableData t first count =
      BitVec.ofNat 8 (parityFlags ((List.range' first count).map t.word)) ::
        (List.range' first count).flatMap fun w => [BitVec.ofNat 8 ((t.word w).data.toNat / 256), BitVec.ofNat 8 (t.word w).data.toNat] := by
  simp only [readTableData, List.flatMap_map]
  rfl

/-! ## The bytes of a record -/

/-- A flag is sent as 0 or 1. -/
theorem flagByte_eq (b : Bool) : flagByte b = oneByte (if b then 1 else 0) := by cases b <;> rfl

/-- A word built of flags has the flag k in bit k (R182). -/
theorem testBit_foldr {α : Type} (f : α → Bool) : ∀ (l : List α) (k : Nat),
    (l.foldr (fun a n => (f a).toNat + 2 * n) 0).testBit k = (l.map f).getD k false
  | [], k => by simp
  | a :: l, k => by
    have bit (n : Nat) : (f a).toNat + 2 * n = Nat.bit (f a) n := by rw [Nat.bit_val, Nat.add_comm]
    cases k with
    | zero => rw [List.foldr_cons, bit, Nat.testBit_bit_zero]; rfl
    | succ k => rw [List.foldr_cons, bit, Nat.testBit_bit_succ, testBit_foldr f l k]; rfl

/-- A word built of n flags has n bits. -/
theorem foldr_lt {α : Type} (f : α → Bool) : ∀ l : List α, l.foldr (fun a n => (f a).toNat + 2 * n) 0 < 2 ^ l.length
  | [] => Nat.one_pos
  | a :: l => by
    have rest := foldr_lt f l
    have flag := Bool.toNat_le (f a)
    simp only [List.foldr_cons, List.length_cons, Nat.pow_succ]
    omega

/-- The modes word holds Mk in bit k (R182). -/
theorem modesWord_bit (v : Vector Bool 16) (k : Fin 16) : (BitVec.ofNat 16 (modesWord v)).getLsbD k.val = v[k] := by
  rw [BitVec.getLsbD_ofNat, decide_eq_true k.isLt, Bool.true_and, modesWord, testBit_foldr]
  simp

/-- The modes word is sent whole (R182). -/
theorem modesWord_toNat (v : Vector Bool 16) : (BitVec.ofNat 16 (modesWord v)).toNat = modesWord v := by
  have small := foldr_lt (fun k : Fin 16 => v[k]) (List.finRange 16)
  rw [List.length_finRange] at small
  exact Nat.mod_eq_of_lt small

/-- An index out of range names no record. -/
theorem map_within_none {α : Type} (n index : Nat) (f : Fin n → α) : (within n index).map f = none ↔ n ≤ index := by
  unfold within
  split
  · next inside => exact iff_of_false (Option.some_ne_none _) (Nat.not_le.mpr inside)
  · next outside => exact iff_of_true rfl (Nat.not_lt.mp outside)

/-- An index within range names its record. -/
theorem map_within {α : Type} {n : Nat} (f : Fin n → α) (i : Fin n) : (within n i.val).map f = some (f i) := by
  simp only [within, dif_pos i.isLt, Option.map_some]

/-- The objects and indexes that name no record (R163). -/
theorem recordOf_none (s : State) (o i : Nat) : recordOf s o i = none ↔
    10 < o ∨ (o = 0 ∧ 64 ≤ i) ∨ (o = 1 ∧ 32 ≤ i) ∨ (o = 2 ∧ 4 ≤ i) ∨ (o = 4 ∧ 32 ≤ i) ∨ (o = 5 ∧ 12 ≤ i) ∨ (o = 7 ∧ 16 ≤ i) ∨ (o = 9 ∧ 4 ≤ i) :=
  match o with
  | 0 | 1 | 2 | 4 | 5 | 7 | 9 => (map_within_none _ i _).trans (by simp)
  | 3 | 6 | 8 | 10 => iff_of_false (Option.some_ne_none _) (by simp)
  | _ + 11 => iff_of_true rfl (by omega)

/-- A pod's eight levels are sent in order (R112, R182). -/
theorem oneByte_levels (v : Vector Level 8) : ((List.finRange 8).flatMap fun k => oneByte (v[k]).val) = v.toList.map fun x => BitVec.ofNat 8 x.val := by
  have entries : v.toList = (List.finRange 8).map fun k => v[k] := by
    refine List.ext_getElem (by simp) fun i _ _ => ?_
    simp
  rw [entries, List.map_map, List.map_eq_flatMap]
  rfl

/-- A side flashes for HAZARD, or for the indicate request with IGNITION set (R95, R113). -/
theorem flashing_eq (s : State) (sd : Side) :
    s.lampEnv.flashing (some sd) = (s.mode 1 || (s.mode 0 && decide (s.engine.indicate = some sd))) := by
  rw [← beq_eq_decide]
  rfl

/-- The fan's effective level, its conditions read the other way round (R152). -/
theorem fanEffective_eq (ignition shed : Bool) (request cap : Nat) :
    fanEffective ignition shed request cap = if ignition = false then 0 else if shed then min request cap else request := by
  cases ignition <;> rfl

/-- Settles O51: the range of a READ-TABLE, the record a READ-STATE names, and every record byte by byte. -/
theorem readsChangeNothing : Obligations.ReadsChangeNothing := by
  refine ⟨?_, ?_, recordOf_none, ?_⟩
  · intro dt p s f area hi lo n serves idle payload next index
    have reads : decodeRequest f.payload = some (.readTable area index n.toNat) := by rw [payload]; rfl
    have asked := execReadTable_asked dt serves reads idle
    refine ⟨fun a named least most inside => ?_, fun bad => ?_⟩
    · have done := readTable_inRange (s.elapse dt) p f named least most (index := index) (by omega)
      refine asked.trans (congrArg Host.Outcome.next ?_)
      rw [done, answer_elapse, payload, readTableData_eq]
      rfl
    · have refused : ¬(1 ≤ n.toNat ∧ n.toNat ≤ 6) ∨ rangeOf area index n.toNat = none := by
        by_cases few : 1 ≤ n.toNat ∧ n.toNat ≤ 6
        · refine .inr (rangeOf_outside ?_)
          rcases bad with unnamed | zero | many | ⟨a, named, beyond⟩
          · exact .inl unnamed
          · omega
          · omega
          · exact .inr ⟨a, named, by omega⟩
        · exact .inl few
      refine asked.trans (congrArg Host.Outcome.next ?_)
      rw [readTable_outOfRange (s.elapse dt) p f refused, answer_elapse, payload]
      rfl
  · intro dt p s f o i serves idle payload next
    have reads : decodeRequest f.payload = some (.readState o.toNat i.toNat) := by rw [payload]; rfl
    have code : f.payload.headD 0xFF#8 = 4#8 := by rw [payload]; rfl
    split
    · next data names =>
      refine (execReadState_some dt serves reads idle names).trans (congrArg Host.Outcome.next ?_)
      rw [answer_elapse, code]
      rfl
    · next names =>
      refine (execReadState_none dt serves reads idle names).trans (congrArg Host.Outcome.next ?_)
      rw [answer_elapse, code]
      rfl
  · intro s one two flag left supply
    refine ⟨fun a => ?_, fun c => ?_, fun k => ?_, fun i => ?_, fun l => ?_, fun P => ?_, fun i => ?_, fun d => ?_, fun i => ?_, fun g => ?_, fun i => ?_⟩
    · refine (map_within (sourceData s) a).trans (congrArg some ?_)
      simp only [sourceData]
      cases s.routes.sources[a].watch <;> rfl
    · refine (map_within (eventData s) c).trans (congrArg some ?_)
      simp only [eventData, flagByte_eq]
      rcases (s.events.channels[c]).pending with _ | _ | _ <;> rfl
    · refine (map_within (slotData s) k).trans (congrArg some ?_)
      simp only [slotData]
      cases (s.engine.slots[k]).next <;> rfl
    · refine ⟨BitVec.ofNat 16 (modesWord s.engine.modes), modesWord_bit _, congrArg some ?_⟩
      rw [modesWord_toNat, modesData]
      rcases s.engine.indicate with _ | _ | _ <;> rfl
    · refine (map_within (loadData s) l).trans (congrArg some ?_)
      simp only [loadData, flagByte_eq]
      cases (s.lamps.loads[l]).binding <;> rfl
    · refine (map_within (podData s) P).trans (congrArg some ?_)
      simp only [podData, flagByte_eq, oneByte_levels]
      rfl
    · refine congrArg some ?_
      simp only [flasherData, flagByte_eq, flashing_eq]
      rfl
    · refine (map_within (descriptorData s) d).trans (congrArg some ?_)
      simp only [descriptorData, flagByte_eq]
      rfl
    · rfl
    · refine (map_within (gaugeData s) g).trans (congrArg some ?_)
      simp only [gaugeData, flagByte_eq]
      rfl
    · refine congrArg some ?_
      simp only [fanData, flagByte_eq, fanEffective_eq]
      rfl

/-! ## READ-COUNTERS -/

/-- The reply to a READ-COUNTERS, from a state of the same straps (R160, R165). -/
theorem replyFrame_counters {s u : State} {f : Frame} {g z : Byte} (payload : f.payload = [5#8, g, z]) (straps : u.straps = s.straps)
    (status : Status) (data : List Byte) :
    replyFrame u f.src (requestCode f) status data = ⟨f.src, s.hubAddress, 5, 5#8 :: BitVec.ofNat 8 status.code :: data⟩ := by
  rw [requestCode, payload, replyFrame, State.hubAddress, straps]
  rfl

/-- A port group is answered in two parts, from the counters as they stood before they were cleared (R30, R165). -/
theorem answerPortGroup_replied (s : State) (p : PortId) {f : Frame} {g z : Byte} (payload : f.payload = [5#8, g, z]) (h : PortId) (clear : Bool) :
    let u := if clear then clearPortCounters s h else s
    let reply (bytes : List Byte) : Frame := ⟨f.src, s.hubAddress, 5, 5#8 :: 0#8 :: bytes⟩
    (answerPortGroup s p f h clear).releasePool p =
      u.setPort p (((u.port p).offerReply (reply (portCounters1 (s.port h).counters)) false).replied (reply (portCounters2 (s.port h).counters))) := by
  intro u reply
  have straps : u.straps = s.straps := by
    unfold u
    split
    · exact State.setPort_straps _ _ _
    · rfl
  show (answer (answer u p f .done _) p f .done _).releasePool p = _
  rw [answer_releasePool, answer, replyFrame_counters payload ((State.setPort_straps _ _ _).trans straps),
    replyFrame_counters payload straps, State.port_setPort, State.setPort_setPort]
  rfl

/-- Settles O52: the group and flag judged, the device group answered at once, and a port group in two parts. -/
theorem countersAreReadAndCleared : Obligations.CountersAreReadAndCleared := by
  intro dt p s f g z serves idle payload two reply s1
  have reads : decodeRequest f.payload = some (.readCounters g.toNat z.toNat) := by rw [payload]; rfl
  have asked := execReadCounters_asked dt serves reads idle
  refine ⟨fun bad => ?_, fun device flag => ?_, fun h port flag => ?_⟩
  · have refused : readCounters (s.elapse dt) p f g.toNat z.toNat = answer (s.elapse dt) p f .badRange [] := by
      unfold readCounters
      split
      · rfl
      · next flag =>
        have group := bad.resolve_right flag
        split
        · omega
        · omega
        · omega
        · rfl
    refine asked.trans (congrArg Host.Outcome.next ?_)
    rw [refused, answer_elapse, payload]
    rfl
  · have done : readCounters (s.elapse dt) p f g.toNat z.toNat =
        answer (if z.toNat = 1 then clearDeviceCounters (s.elapse dt) else s.elapse dt) p f .done (deviceCounters (s.elapse dt)) := by
      rw [device]
      exact if_neg (Nat.not_lt.mpr flag)
    have set : z.toNat = 1 ↔ z = 1#8 := ⟨fun e => BitVec.eq_of_toNat_eq e, fun e => congrArg BitVec.toNat e⟩
    refine asked.trans (congrArg Host.Outcome.next ?_)
    rw [done]
    simp only [set]
    split
    · rw [answer_releasePool, replyFrame_counters (s := s) (u := clearDeviceCounters (s.elapse dt)) payload rfl]
      cases p <;> rfl
    · rw [answer_releasePool, replyFrame_counters (s := s) (u := s.elapse dt) payload rfl]
      cases p <;> rfl
  · intro c s2
    have done : readCounters (s.elapse dt) p f g.toNat z.toNat = answerPortGroup (s.elapse dt) p f h (z.toNat == 1) := by
      rw [port]
      cases h <;> exact if_neg (Nat.not_lt.mpr flag)
    have cleared : s2 = if z.toNat == 1 then clearPortCounters (s.elapse dt) h else s.elapse dt := by
      have set : (z.toNat == 1) = decide (z = 1#8) := by
        rw [beq_eq_decide]
        exact decide_eq_decide.mpr ⟨fun e => BitVec.eq_of_toNat_eq e, fun e => congrArg BitVec.toNat e⟩
      simp only [set, decide_eq_true_eq, clearPortCounters, State.port_elapse]
      rfl
    refine asked.trans (congrArg Host.Outcome.next ?_)
    rw [done, answerPortGroup_replied (s.elapse dt) p payload h, ← cleared, State.port_elapse]
    rfl

end Sys2Proof.Machine.ServiceReads
end

section
/-! PROOFS. WRITE-TABLE and LOAD-LIMP (R166, R168): the words written, the pending edges that a disabled channel loses, and the resolution of the
loads. -/

namespace Sys2Proof.Machine.ServiceWrites

open ServiceRequests ServiceReads SupplyResets

/-! ## The commands, taken by an idle engine -/

section Taken

variable {p : PortId} {s : State} {f : Frame}

section Write

variable {area : Byte} {index : Nat} {ws : List Word16}

/-- WRITE-TABLE is refused while IGNITION is set (R166). -/
theorem execWriteTable_notParked (dt : Time) (serves : s.Serves p .serviceRequest f)
    (reads : decodeRequest f.payload = some (.writeTable area index ws)) (idle : s.service = .idle) (driven : s.ignition = true) :
    execWriteTable dt p s = .next ((answer (s.elapse dt) p f .notParked []).releasePool p) := by
  have ready : (s.elapse dt).service = .idle := idle
  have on : (s.elapse dt).ignition = true := driven
  simp only [execWriteTable, live_running serves.1, State.port_elapse, request_of_decode serves reads, unlessBusy_idle ready, on, if_true]

/-- WRITE-TABLE outside its area is refused (R166). -/
theorem execWriteTable_badRange (dt : Time) (serves : s.Serves p .serviceRequest f)
    (reads : decodeRequest f.payload = some (.writeTable area index ws)) (idle : s.service = .idle) (parked : s.ignition = false)
    (range : rangeOf area index ws.length = none) :
    execWriteTable dt p s = .next ((answer (s.elapse dt) p f .badRange []).releasePool p) := by
  have ready : (s.elapse dt).service = .idle := idle
  have off : (s.elapse dt).ignition = false := parked
  simp only [execWriteTable, live_running serves.1, State.port_elapse, request_of_decode serves reads, unlessBusy_idle ready, off, range,
    Bool.false_eq_true, if_false]

/-- WRITE-TABLE within its area is performed (R166). -/
theorem execWriteTable_done (dt : Time) {a : Area} {first : Nat} (serves : s.Serves p .serviceRequest f)
    (reads : decodeRequest f.payload = some (.writeTable area index ws)) (idle : s.service = .idle) (parked : s.ignition = false)
    (range : rangeOf area index ws.length = some (a, first)) :
    execWriteTable dt p s = .next ((answer (writeTable (s.elapse dt) a index ws) p f .done []).releasePool p) := by
  have ready : (s.elapse dt).service = .idle := idle
  have off : (s.elapse dt).ignition = false := parked
  simp only [execWriteTable, live_running serves.1, State.port_elapse, request_of_decode serves reads, unlessBusy_idle ready, off, range,
    Bool.false_eq_true, if_false]

end Write

section Limp

variable {variant : Nat}

/-- LOAD-LIMP is refused while IGNITION is set (R168). -/
theorem execLoadLimp_notParked (dt : Time) (serves : s.Serves p .serviceRequest f)
    (reads : decodeRequest f.payload = some (.loadLimp variant)) (idle : s.service = .idle) (driven : s.ignition = true) :
    execLoadLimp dt p s = .next ((answer (s.elapse dt) p f .notParked []).releasePool p) := by
  have ready : (s.elapse dt).service = .idle := idle
  have on : (s.elapse dt).ignition = true := driven
  simp only [execLoadLimp, live_running serves.1, State.port_elapse, request_of_decode serves reads, unlessBusy_idle ready, on, if_true]

/-- LOAD-LIMP of no variant is refused (R168). -/
theorem execLoadLimp_badRange (dt : Time) (serves : s.Serves p .serviceRequest f)
    (reads : decodeRequest f.payload = some (.loadLimp variant)) (idle : s.service = .idle) (parked : s.ignition = false)
    (none : variantOf variant = none) :
    execLoadLimp dt p s = .next ((answer (s.elapse dt) p f .badRange []).releasePool p) := by
  have ready : (s.elapse dt).service = .idle := idle
  have off : (s.elapse dt).ignition = false := parked
  simp only [execLoadLimp, live_running serves.1, State.port_elapse, request_of_decode serves reads, unlessBusy_idle ready, off, none,
    Bool.false_eq_true, if_false]

/-- LOAD-LIMP of a variant is performed (R168). -/
theorem execLoadLimp_done (dt : Time) {v : LimpVariant} (serves : s.Serves p .serviceRequest f)
    (reads : decodeRequest f.payload = some (.loadLimp variant)) (idle : s.service = .idle) (parked : s.ignition = false)
    (named : variantOf variant = some v) :
    execLoadLimp dt p s = .next ((answer (loadLimp (s.elapse dt) v) p f .done []).releasePool p) := by
  have ready : (s.elapse dt).service = .idle := idle
  have off : (s.elapse dt).ignition = false := parked
  simp only [execLoadLimp, live_running serves.1, State.port_elapse, request_of_decode serves reads, unlessBusy_idle ready, off, named,
    Bool.false_eq_true, if_false]

end Limp

/-- A reply of one status byte, from a state of the same straps, and the pool released (R160). -/
theorem reply_status {u : State} (p : PortId) {code : Byte} {rest : List Byte} (status : Status) (payload : f.payload = code :: rest)
    (straps : u.straps = s.straps) :
    (answer u p f status []).releasePool p =
      u.setPort p ((u.port p).replied ⟨f.src, s.hubAddress, 5, [code, BitVec.ofNat 8 status.code]⟩) := by
  rw [answer_releasePool]
  simp only [replyFrame, requestCode, payload, List.headD_cons, State.hubAddress, straps]

end Taken

/-! ## The words written -/

/-- Words written touch the cells alone (R8). -/
theorem writeWords_cells : ∀ (ws : List Word16) (t : TableStore) (a : Nat), t.writeWords a ws = { t with cells := (t.writeWords a ws).cells }
  | [], _, _ => rfl
  | _ :: ws, _, a => writeWords_cells ws _ (a + 1)

/-! ## The pending edges lost -/

/-- The enable of a channel, as its EVENT word stands (R68). -/
def enabled (t : TableStore) (c : Fin 32) : Bool := (t.word (address .event (c.val * 2))).data.getLsbD 15

/-- A channel whose enable word was written: without its pending edge where it reads off (R68). -/
def droppedChannel (t : TableStore) (cs : List (Fin 32)) (c : Fin 32) (x : Channel) : Channel :=
  if c ∈ cs ∧ enabled t c = false then { x with pending := none } else x

/-- One channel at a time touches the channels alone, and none but its own. -/
theorem dropDisabled_channels (s : State) (c : Fin 32) :
    ∃ v, dropDisabled s c = { s with events := { s.events with channels := v } } ∧
      ∀ d : Fin 32, v[d] = droppedChannel s.tables [c] d (s.events.channels[d]) := by
  unfold dropDisabled
  split
  · next on =>
    refine ⟨s.events.channels, rfl, fun d => (if_neg ?_).symm⟩
    rintro ⟨named, off⟩
    obtain rfl := List.mem_singleton.mp named
    exact absurd (on.symm.trans off) (by decide)
  · next off =>
    refine ⟨upd s.events.channels c fun x => { x with pending := none }, rfl, fun d => ?_⟩
    rw [upd_get, droppedChannel]
    by_cases same : c = d
    · subst same
      rw [if_pos rfl, if_pos ⟨List.mem_singleton.mpr rfl, Bool.eq_false_iff.mpr off⟩]
    · rw [if_neg same, if_neg fun h => same (List.mem_singleton.mp h.1).symm]

/-- A channel loses its pending edge once, however often it is named. -/
theorem droppedChannel_cons (t : TableStore) (c : Fin 32) (cs : List (Fin 32)) (d : Fin 32) (x : Channel) :
    droppedChannel t cs d (droppedChannel t [c] d x) = droppedChannel t (c :: cs) d x := by
  have named : d ∈ c :: cs ↔ d ∈ [c] ∨ d ∈ cs := by simp
  by_cases off : enabled t d = false
  · by_cases first : d ∈ [c] <;> by_cases later : d ∈ cs <;>
      simp only [droppedChannel, named, off, first, later, and_true, or_true, true_or, or_self, if_true, if_false]
  · simp only [droppedChannel, off, Bool.true_eq_false, and_false, if_false]

/-- A write of enable words touches the channels alone: each one it disables loses its pending edge (R68). -/
theorem foldl_dropDisabled : ∀ (cs : List (Fin 32)) (s : State),
    ∃ v, cs.foldl dropDisabled s = { s with events := { s.events with channels := v } } ∧
      ∀ d : Fin 32, v[d] = droppedChannel s.tables cs d (s.events.channels[d])
  | [], s => ⟨s.events.channels, rfl, fun d => (if_neg fun h => List.not_mem_nil h.1).symm⟩
  | c :: cs, s => by
    obtain ⟨v, first, one⟩ := dropDisabled_channels s c
    obtain ⟨w, rest, others⟩ := foldl_dropDisabled cs (dropDisabled s c)
    refine ⟨w, ?_, fun d => ?_⟩
    · rw [List.foldl_cons, rest, first]
    · rw [others d, first]
      show droppedChannel s.tables cs d v[d] = _
      rw [one d]
      exact droppedChannel_cons s.tables c cs d _

/-- What a write of EVENT words leaves of the state: channels, and the choice called for (R68, R72). -/
theorem eventsWritten_channels (s : State) (cs : List (Fin 32)) :
    ∃ v, eventsWritten s cs = { s with events := { s.events with channels := v, choiceMade := false } } ∧
      ∀ d : Fin 32, v[d] = droppedChannel s.tables cs d (s.events.channels[d]) := by
  obtain ⟨v, dropped, each⟩ := foldl_dropDisabled cs s
  refine ⟨v, ?_, each⟩
  rw [eventsWritten, dropped]
  rfl

/-! ## WRITE-TABLE accepted -/

/-- The store with the words of a WRITE-TABLE, MODIFIED (R166). -/
def writtenTables (t : TableStore) (a : Area) (index : Nat) (ws : List Word16) : TableStore :=
  { t.writeWords (address a index) ws with source := .modified }

/-- A WRITE-TABLE accepted, with its loads still to resolve: the words, and what the channels take from EVENT words (R68, R166). -/
def written (s : State) (a : Area) (index : Nat) (ws : List Word16) : State :=
  if a = .event then eventsWritten (s.withTables (writtenTables s.tables a index ws)) (channelsIn index ws.length)
  else s.withTables (writtenTables s.tables a index ws)

/-- LOAD words call for a resolution of all loads, and no others do (R111). -/
theorem writeTable_eq (s : State) (a : Area) (index : Nat) (ws : List Word16) :
    writeTable s a index ws = if a = .load then resolveAll (written s a index ws) else written s a index ws := by
  cases a <;> rfl

/-- An accepted WRITE-TABLE touches store and channels alone (R166). -/
theorem written_event (s : State) (index : Nat) (ws : List Word16) :
    ∃ v, written s .event index ws =
        { s with
          tables := writtenTables s.tables .event index ws
          events := { s.events with channels := v, choiceMade := false } } ∧
      ∀ c : Fin 32, v[c] = droppedChannel (writtenTables s.tables .event index ws) (channelsIn index ws.length) c (s.events.channels[c]) :=
  eventsWritten_channels (s.withTables (writtenTables s.tables .event index ws)) (channelsIn index ws.length)

theorem written_other (s : State) {a : Area} (other : a ≠ .event) (index : Nat) (ws : List Word16) :
    written s a index ws = s.withTables (writtenTables s.tables a index ws) := if_neg other

theorem written_tables (s : State) (a : Area) (index : Nat) (ws : List Word16) :
    (written s a index ws).tables = writtenTables s.tables a index ws := by
  by_cases event : a = .event
  · subst event
    obtain ⟨v, e, _⟩ := written_event s index ws
    rw [e]
  · rw [written_other s event]
    rfl

/-- The words of a WRITE-TABLE, fresh, and every other word as it stood (R8, R166). -/
theorem word_written {t : TableStore} (canonical : t.Wf) {a : Area} {index : Nat} {ws : List Word16} (inside : index + ws.length ≤ a.words) (b : Nat) :
    (writtenTables t a index ws).word b =
      if a.base + index ≤ b ∧ b < a.base + index + ws.length then fresh (ws.getD (b - (a.base + index)) 0#16) else t.word b := by
  have within : address a index + ws.length ≤ tableWords := by
    have := StandingOrder.area_within a
    simp only [address]
    omega
  refine (TableStore.word_writeWords ws t (address a index) b within canonical).trans ?_
  by_cases h : a.base + index ≤ b ∧ b < a.base + index + ws.length
  · have bound : b - (a.base + index) < ws.length := by omega
    rw [if_pos h, List.getD_eq_getElem _ _ bound]
    exact dif_pos h
  · rw [if_neg h]
    exact dif_neg h

theorem fresh_mark (w : Word16) : (fresh w).mark = false := rfl

/-- The channels of a range of EVENT indexes: those whose enable word lies in it (R68). -/
theorem mem_channelsIn {index count : Nat} {c : Fin 32} : c ∈ channelsIn index count ↔ index ≤ 2 * c.val ∧ 2 * c.val < index + count := by
  simp only [channelsIn, List.mem_filter, List.mem_finRange, true_and, Bool.and_eq_true, decide_eq_true_eq, Nat.mul_comm c.val 2]

/-- The channels a WRITE-TABLE of EVENT words disables lose their pending edge (R68). -/
theorem droppedChannel_written {t : TableStore} (canonical : t.Wf) {index : Nat} {ws : List Word16} (inside : index + ws.length ≤ Area.event.words)
    (c : Fin 32) (x : Channel) :
    droppedChannel (writtenTables t .event index ws) (channelsIn index ws.length) c x =
      if index ≤ 2 * c.val ∧ 2 * c.val < index + ws.length ∧ (ws.getD (2 * c.val - index) 0#16).getLsbD 15 = false then { x with pending := none }
      else x := by
  simp only [droppedChannel, mem_channelsIn, enabled, word_written canonical inside, address]
  by_cases range : index ≤ 2 * c.val ∧ 2 * c.val < index + ws.length
  · have word : Area.event.base + index ≤ Area.event.base + c.val * 2 ∧ Area.event.base + c.val * 2 < Area.event.base + index + ws.length := by omega
    have place : Area.event.base + c.val * 2 - (Area.event.base + index) = 2 * c.val - index := by omega
    simp only [if_pos word, place, range, true_and, and_self]
    rfl
  · rw [if_neg fun h => range h.1, if_neg fun h => range ⟨h.1, h.2.1⟩]

/-- Settles O53: refused while IGNITION is set or out of range; accepted, the words, the channels they disable, and the loads resolved. -/
theorem writeTableWritesItsWords : Obligations.WriteTableWritesItsWords := by
  intro dt p s f area hi lo data ws serves idle payload words least most reply index
  have reads : decodeRequest f.payload = some (.writeTable area index ws) := by
    rw [payload]
    exact (decodeOperands_writeTable area hi lo data).trans ((congrArg (Option.bind · _) words).trans (if_pos ⟨least, most⟩))
  refine ⟨fun driven => ?_, fun parked outside => ?_, fun a parked named inside canonical => ?_⟩
  · exact (execWriteTable_notParked dt serves reads idle driven).trans (congrArg Host.Outcome.next (reply_status p .notParked payload rfl))
  · exact (execWriteTable_badRange dt serves reads idle parked (rangeOf_outside outside)).trans
      (congrArg Host.Outcome.next (reply_status p .badRange payload rfl))
  · have done := execWriteTable_done dt serves reads idle parked (rangeOf_area named inside)
    have tables : (written (s.elapse dt) a index ws).tables = writtenTables s.tables a index ws := written_tables (s.elapse dt) a index ws
    have fields : written (s.elapse dt) a index ws =
        { s with now := s.now + dt, tables := (written (s.elapse dt) a index ws).tables, events := (written (s.elapse dt) a index ws).events } := by
      by_cases event : a = .event
      · subst event
        obtain ⟨v, e, _⟩ := written_event (s.elapse dt) index ws
        rw [e]
        rfl
      · rw [written_other (s.elapse dt) event]
        rfl
    have kept : (written (s.elapse dt) a index ws).straps = s.straps := by rw [fields]
    generalize result : writeTable (s.elapse dt) a index ws = t at done
    rw [writeTable_eq] at result
    have straps : t.straps = s.straps := by
      rw [← result]
      split
      · obtain ⟨_, _, _, _, e, _⟩ := resolveAll_touches (written (s.elapse dt) a index ws)
        rw [e]
        exact kept
      · exact kept
    refine ⟨written (s.elapse dt) a index ws, t, done.trans (congrArg Host.Outcome.next (reply_status p .done payload straps)), fields, ?_, ?_, ?_, ?_,
      ?_, ?_, fun other => ?_, fun load => ?_⟩
    · rw [tables]
      rfl
    · rw [tables, writtenTables, writeWords_cells]
    · intro b
      rw [tables]
      exact word_written canonical inside b
    · intro b range
      rw [tables, word_written canonical inside, if_pos range]
      exact ⟨fresh_fails _, fresh_mark _⟩
    · intro other
      rw [written_other (s.elapse dt) other]
      rfl
    · intro event
      subst event
      obtain ⟨v, e, each⟩ := written_event (s.elapse dt) index ws
      rw [e]
      exact ⟨rfl, fun c => (each c).trans (droppedChannel_written canonical inside c _)⟩
    · rw [← result, if_neg other]
    · rw [if_pos load] at result
      obtain ⟨u, m, n, lamps, touched, kept, fade⟩ := resolveAll_touches (written (s.elapse dt) a index ws)
      have final : t = { written (s.elapse dt) a index ws with
          tables := t.tables, front := { s.front with queue := t.front.queue }, rear := { s.rear with queue := t.rear.queue }, lamps := t.lamps } := by
        rw [← result, touched, fields]
      have reading : (written (s.elapse dt) a index ws).tables.Reads t.tables := by rw [← result, touched]; exact kept
      have same : (written (s.elapse dt) a index ws).lamps = s.lamps := by rw [fields]
      have env : (written (s.elapse dt) a index ws).lampEnv = (s.elapse dt).lampEnv := by rw [fields]; rfl
      have resolution : resolveLoads (written (s.elapse dt) a index ws) false (List.finRange 32) = t := result
      refine ⟨resolution.symm, reading.1, final, ?_, fun P => ?_, fun l => ?_⟩
      · rw [← result, touched]
        exact fade.trans (congrArg (·.fadeTimer) same)
      · have pods := LampPods.resolveLoads_pods (written (s.elapse dt) a index ws) false (List.finRange 32) P
        rw [same, resolution] at pods
        exact pods
      · have get := ActionChains.resolveLoads_get (written (s.elapse dt) a index ws) false (List.nodup_finRange 32) l
        rw [if_pos (List.mem_finRange l), same, env, resolution, ActionChains.resolved, ← reading.load] at get
        exact get

/-! ## LOAD-LIMP accepted -/

/-- A store taken whole drops the pending edges of the channels it disables (R68). -/
theorem replaced_channels (s : State) (u : TableStore) :
    ∃ x, eventsWritten (s.withTables u) (List.finRange 32) =
        { s with tables := u, events := { s.events with channels := x, choiceMade := false } } ∧
      ∀ c : Fin 32, x[c] = droppedChannel u (List.finRange 32) c (s.events.channels[c]) :=
  eventsWritten_channels (s.withTables u) (List.finRange 32)

/-- The enables of a store just filled are the image's (R68). -/
theorem droppedChannel_fill (t : TableStore) (v : LimpVariant) (c : Fin 32) (x : Channel) :
    droppedChannel (t.fill (Limp.word v) .limp) (List.finRange 32) c x =
      if (Limp.word v (384 + 2 * c.val)).getLsbD 15 then x else { x with pending := none } := by
  have inside : address .event (c.val * 2) < tableWords := by
    have := c.isLt
    simp only [address, Area.base, tableWords]
    omega
  have place : address .event (c.val * 2) = 384 + 2 * c.val := by rw [address, Nat.mul_comm]; rfl
  have enable : enabled (t.fill (Limp.word v) .limp) c = (Limp.word v (384 + 2 * c.val)).getLsbD 15 := by
    rw [enabled, TableStore.word_fill t _ _ _ inside, place]
    rfl
  rw [droppedChannel, enable]
  cases (Limp.word v (384 + 2 * c.val)).getLsbD 15 with
  | true => simp
  | false => simp [List.mem_finRange]

theorem fill_source (t : TableStore) (image : Nat → Word16) (source : TableSource) : (t.fill image source).source = source := by
  rw [TableStore.fill]

theorem fill_parityCount (t : TableStore) (image : Nat → Word16) (source : TableSource) : (t.fill image source).parityCount = t.parityCount := by
  rw [TableStore.fill]

/-- No word of a store just filled fails or is marked (R8). -/
theorem fill_good (t : TableStore) (image : Nat → Word16) (source : TableSource) (a : Nat) :
    ((t.fill image source).word a).fails = false ∧ ((t.fill image source).word a).mark = false := by
  obtain ⟨w, read⟩ := word_fill_fresh t image source a
  rw [read]
  exact ⟨fresh_fails w, fresh_mark w⟩

/-- A LOAD entry of a store of which no word fails reads good (R10). -/
theorem load_good {t : TableStore} (good : ∀ a, (t.word a).fails = false) (l : Fin 32) : ∃ e, (t.load l).2 = some e := by
  have none : t.failing (address .load (l.val * 4)) 4 = [] := List.filter_eq_nil_iff.mpr fun a _ => Bool.eq_false_iff.mp (good a)
  rw [TableStore.load, TableStore.readBlock_good none]
  exact ⟨_, rfl⟩

/-- A byte above 1 names no variant (R182). -/
theorem variantOf_none : ∀ {n : Nat}, 1 < n → variantOf n = none
  | 0, large => absurd large (Nat.not_lt_zero 1)
  | 1, large => absurd large (Nat.lt_irrefl 1)
  | _ + 2, _ => rfl

/-- Settles O56: refused while IGNITION is set or of no variant; accepted, the store filled, the channels it disables, and every load resolved from a
good entry. -/
theorem loadLimpReplacesTheStore : Obligations.LoadLimpReplacesTheStore := by
  intro dt p s f v serves idle payload reply
  have reads : decodeRequest f.payload = some (.loadLimp v.toNat) := by rw [payload]; rfl
  refine ⟨fun driven => ?_, fun parked large => ?_, fun variant parked named => ?_⟩
  · exact (execLoadLimp_notParked dt serves reads idle driven).trans (congrArg Host.Outcome.next (reply_status p .notParked payload rfl))
  · exact (execLoadLimp_badRange dt serves reads idle parked (variantOf_none large)).trans
      (congrArg Host.Outcome.next (reply_status p .badRange payload rfl))
  · have done := execLoadLimp_done dt serves reads idle parked (v := variant) (by rw [named]; cases variant <;> rfl)
    have good := fill_good s.tables (Limp.word variant) .limp
    have filled := TableStore.word_fill s.tables (Limp.word variant) .limp
    have source := fill_source s.tables (Limp.word variant) .limp
    have count := fill_parityCount s.tables (Limp.word variant) .limp
    have dropped := droppedChannel_fill s.tables variant
    rw [loadLimp, State.elapse_tables] at done
    generalize s.tables.fill (Limp.word variant) .limp = u at done good filled source count dropped
    obtain ⟨x, fields, each⟩ := replaced_channels (s.elapse dt) u
    generalize eventsWritten ((s.elapse dt).withTables u) (List.finRange 32) = w at done fields
    have resolution : resolveLoads w false (List.finRange 32) = resolveAll w := rfl
    obtain ⟨u', m, n, lamps, touched, kept, fade⟩ := resolveAll_touches w
    have pods := LampPods.resolveLoads_pods w false (List.finRange 32)
    have get := fun l => ActionChains.resolveLoads_get w false (List.nodup_finRange 32) l
    generalize resolveAll w = t at done resolution touched
    have stands : t.tables = w.tables := by
      rw [touched]
      refine kept.1.2.2.1 fun a => ?_
      rw [fields]
      exact (good a).1
    have env : w.lampEnv = (s.elapse dt).lampEnv := by
      rw [fields]
      simp only [State.lampEnv, State.mode]
    have same : w.lamps = s.lamps := by rw [fields]; rfl
    have straps : t.straps = s.straps := by rw [touched, fields]; rfl
    refine ⟨w, t, done.trans (congrArg Host.Outcome.next (reply_status p .done payload straps)), ?_, ?_, ?_, ?_, ?_, fun c => ?_, resolution.symm, ?_, ?_,
      fun P => ?_, fun l => ?_⟩
    · rw [fields]
      rfl
    · rw [fields]
      exact filled
    · rw [fields]
      exact source
    · rw [fields]
      exact count
    · rw [fields]
      exact tableFault_of_unmarked fun a _ => (good a).2
    · rw [fields]
      exact (each c).trans (dropped c _)
    · rw [touched] at stands ⊢
      rw [fields] at stands ⊢
      simp only at stands
      subst stands
      rfl
    · rw [touched]
      exact fade.trans (congrArg (·.fadeTimer) same)
    · have pod := pods P
      rw [same, resolution] at pod
      exact pod
    · obtain ⟨e, entry⟩ := load_good (t := w.tables) (by rw [fields]; exact fun a => (good a).1) l
      refine ⟨e, entry, ?_⟩
      have loads := get l
      rw [if_pos (List.mem_finRange l), same, env, resolution, ActionChains.resolved, entry] at loads
      exact loads

end Sys2Proof.Machine.ServiceWrites
end

section
/-! PROOFS. A walk of the action engine entry by entry (R76 to R80, R86 to R89): where it goes on, how it ends, suspends or faults, and that it reads at
most 32 entries. -/

namespace Sys2Proof.Machine.WalkSteps

/-! ## Where a walk goes -/

theorem onward_zero (i : Fin 256) : onward i 0 = .chainEnd := if_pos rfl

/-- A target within 0 to 255 is walked on with (R77). -/
theorem onward_within {i j : Fin 256} {offset : Int} (moves : offset ≠ 0) (target : (j.val : Int) = i.val + offset) : onward i offset = .goto j := by
  have inside : 0 ≤ (i.val : Int) + offset ∧ (i.val : Int) + offset ≤ 255 := by omega
  have same : Fin.ofNat 256 ((i.val : Int) + offset).toNat = j := by
    refine Fin.ext ?_
    rw [← target, Int.toNat_natCast]
    exact Nat.mod_eq_of_lt j.isLt
  rw [onward, if_neg moves, if_pos inside, same]

/-- Any other target is a walk fault (R77). -/
theorem onward_outside {i : Fin 256} {offset : Int} (beyond : (i.val : Int) + offset < 0 ∨ 255 < (i.val : Int) + offset) :
    onward i offset = .outside := by
  rw [onward, if_neg (by omega), if_neg (by omega)]

/-- A test holds or not whatever its operation performs, for it performs nothing (R86). -/
theorem testHolds_perform (op : ActionOp) (s : State) : testHolds op (perform op s) = testHolds op s := by cases op <;> rfl

/-- The target is that of the test that holds, or of the link (R77, R86). -/
theorem nextOf_eq (i : Fin 256) (e : ActionEntry) (s : State) : nextOf i e s = onward i ((testHolds e.op s).getD e.link) := by
  unfold nextOf
  cases testHolds e.op s <;> rfl

/-! ## One entry -/

section Entry

variable {s : State} {ch : Chain} {i : Fin 256}

/-- An ACTION entry that reads good leaves the store as it was (R10). -/
theorem action_some {e : ActionEntry} (read : (s.tables.action i).2 = some e) : s.withTables (s.tables.action i).1 = s := by
  obtain ⟨_, words, _⟩ := Option.map_eq_some_iff.mp read
  have same : (s.tables.action i).1 = s.tables := TableStore.readBlock_some words
  rw [same]
  rfl

/-- A failing entry ends the chain, and nothing of it is performed (R80). -/
theorem walk_failing (n : Nat) (read : (s.tables.action i).2 = none) :
    walk ch (n + 1) i s = endChain ch (s.withTables (s.tables.action i).1) := by
  simp only [walk, read]

/-- Where a chain goes after an entry performed (R76, R77). -/
def continueWalk (ch : Chain) (n : Nat) (s : State) : Onward → State
  | .chainEnd => endChain ch s
  | .goto j => walk ch n j s
  | .outside => faultChain ch s

/-- An entry that is no WAIT is performed, and the walk goes on (R76, R77, R86). -/
theorem walk_performs {e : ActionEntry} (n : Nat) (read : (s.tables.action i).2 = some e) (noWait : ∀ time, e.op ≠ .wait time) :
    walk ch (n + 1) i s = continueWalk ch n (perform e.op s) (onward i ((testHolds e.op s).getD e.link)) := by
  obtain ⟨op, link⟩ := e
  have target := nextOf_eq i ⟨op, link⟩ (perform op s)
  rw [testHolds_perform] at target
  have body : walk ch (n + 1) i s = continueWalk ch n (perform op s) (nextOf i ⟨op, link⟩ (perform op s)) := by
    simp only [walk, read, action_some read]
    cases op with
    | wait time => exact absurd rfl (noWait time)
    | _ => rfl
  rw [body, target]

/-- Where a WAIT with a slot goes: the chain suspends there, with its next entry, or faults (R87). -/
def suspendAt (ch : Chain) (k : Fin 4) (time : Nat) (s : State) : Onward → State
  | .chainEnd => suspendChain ch k none time s
  | .goto j => suspendChain ch k (some j) time s
  | .outside => faultChain ch s

theorem walk_suspends {time : Nat} {link : Int} {k : Fin 4} (n : Nat) (read : (s.tables.action i).2 = some ⟨.wait time, link⟩)
    (slot : availableSlot ch s = some k) : walk ch (n + 1) i s = suspendAt ch k time s (onward i link) := by
  simp only [walk, read, action_some read, slot]
  rfl

/-- A WAIT with no slot is skipped, and SLOT-FULL counts (R88). -/
theorem walk_skips {time : Nat} {link : Int} (n : Nat) (read : (s.tables.action i).2 = some ⟨.wait time, link⟩) (slot : availableSlot ch s = none) :
    walk ch (n + 1) i s =
      continueWalk ch n { s with engine := { s.engine with slotFull := s.engine.slotFull.bump } } (onward i link) := by
  simp only [walk, read, action_some read, slot]
  rfl

/-- A chain for which no slot is available holds none, and its end changes nothing (R87, R89). -/
theorem endChain_slotless (slot : availableSlot ch s = none) (u : State) : endChain ch u = u := by
  obtain ⟨c, held⟩ := ch
  cases held with
  | none => rfl
  | some k => exact absurd slot (Option.some_ne_none k)

end Entry

/-- A walk reads at most as many entries as its budget, and then faults (R78). -/
theorem walk_exhausts (s : State) (ch : Chain) : ∀ (n : Nat) (f : Nat → Fin 256),
    (∀ k < n, ∃ e, (s.tables.action (f k)).2 = some e ∧ e.op = .unnamed ∧ onward (f k) e.link = .goto (f (k + 1))) →
    walk ch n (f 0) s = faultChain ch s
  | 0, _, _ => rfl
  | n + 1, f, goes => by
    obtain ⟨e, read, unnamed, next⟩ := goes 0 (Nat.succ_pos n)
    have rest := walk_exhausts s ch n (fun k => f (k + 1)) fun k below => goes (k + 1) (Nat.succ_lt_succ below)
    rw [walk_performs n read (fun time wait => nomatch unnamed.symm.trans wait), unnamed]
    exact (congrArg (continueWalk ch n s) next).trans rest

/-- The slot available to a chain not resumed from one is the lowest FREE (R87). -/
theorem availableSlot_iff (s : State) (c : Fin 32) (k : Fin 4) :
    availableSlot ⟨c, none⟩ s = some k ↔ (s.engine.slots[k]).state = .free ∧ ∀ j : Fin 4, j < k → (s.engine.slots[j]).state ≠ .free :=
  ActionChains.lowestSlot_eq_some_iff

/-- Settles O31: a walk's budget, its ends and faults, and one entry of it. -/
theorem walksFaultAndSuspend : Obligations.WalksFaultAndSuspend := by
  refine ⟨fun _ _ _ => rfl, fun s ch f goes => walk_exhausts s ch 32 f goes, fun _ _ => ⟨rfl, rfl⟩, fun _ _ _ => ⟨rfl, rfl⟩,
    fun s c k => ⟨rfl, availableSlot_iff s c k⟩, fun _ _ _ => rfl, fun s ch n i read => walk_failing n read, ?_, ?_⟩
  · intro s ch n i e read noWait u offset
    have performed := walk_performs (ch := ch) n read noWait
    refine ⟨fun zero => ?_, fun j moves target => ?_, fun beyond => ?_⟩
    · exact performed.trans (congrArg (continueWalk ch n u) ((congrArg (onward i) zero).trans (onward_zero i)))
    · exact performed.trans (congrArg (continueWalk ch n u) (onward_within moves target))
    · exact performed.trans (congrArg (continueWalk ch n u) (onward_outside beyond))
  · intro s ch n i time link read
    refine ⟨fun k slot => ?_, fun slot => ?_⟩
    · have suspended := walk_suspends (ch := ch) n read slot
      refine ⟨fun zero => ?_, fun j moves target => ?_, fun beyond => ?_⟩
      · exact suspended.trans (congrArg (suspendAt ch k time s) ((congrArg (onward i) zero).trans (onward_zero i)))
      · exact suspended.trans (congrArg (suspendAt ch k time s) (onward_within moves target))
      · exact suspended.trans (congrArg (suspendAt ch k time s) (onward_outside beyond))
    · intro u
      have skipped := walk_skips (ch := ch) n read slot
      refine ⟨fun zero => ?_, fun j moves target => ?_, fun beyond => ?_⟩
      · exact (skipped.trans (congrArg (continueWalk ch n u) ((congrArg (onward i) zero).trans (onward_zero i)))).trans (endChain_slotless slot u)
      · exact skipped.trans (congrArg (continueWalk ch n u) (onward_within moves target))
      · exact skipped.trans (congrArg (continueWalk ch n u) (onward_outside beyond))

end Sys2Proof.Machine.WalkSteps
end

section
/-! PROOFS. The choice of the action engine (R64, R67, R72 to R74): the channels it passes over, and the one it takes. -/

namespace Sys2Proof.Machine.EngineChoice

open ParityCount

/-! ## A chain cancelled -/

/-- A cancellation frees each slot that holds a chain of the channel, and touches no other (R74). -/
theorem cancelChain_slots (s : State) (c : Fin 32) (k : Fin 4) :
    (cancelChain s c).engine.slots[k] =
      if (s.engine.slots[k]).state ≠ .free ∧ (s.engine.slots[k]).channel = c then { s.engine.slots[k] with state := .free, timer := none }
      else s.engine.slots[k] := by
  rw [ChainSlots.cancelChain_eq]
  refine ((ChainSlots.foldl_upd_get (ChainSlots.cancelled_cancelled c) k (List.finRange 4) s.engine.slots).trans (if_pos (List.mem_finRange k))).trans ?_
  simp only [ChainSlots.cancelled, ChainSlots.heldFor_eq_some_iff]
  rfl

/-- A cancellation clears the channel's in-service mark, and touches no other channel (R74). -/
theorem cancelChain_channels (s : State) (c d : Fin 32) :
    (cancelChain s c).events.channels[d] = if d = c then { s.events.channels[d] with inService := false } else s.events.channels[d] := by
  rw [ChainSlots.cancelChain_eq]
  simp only [State.setInService, State.updChannel_events, upd_get, eq_comm (a := c)]

/-- A cancellation touches slots and channels alone (R74). -/
theorem cancelChain_fields (s : State) (c : Fin 32) :
    cancelChain s c =
      { s with
        engine := { s.engine with slots := (cancelChain s c).engine.slots }
        events := { s.events with channels := (cancelChain s c).events.channels } } := by
  rw [ChainSlots.cancelChain_eq]
  rfl

/-! ## The channels passed over -/

/-- A channel is asked at a choice: pending and not masked (R64). -/
def asks (s : State) (d : Fin 32) : Bool := (s.events.channels[d]).pending.isSome && !(s.events.channels[d]).masked

/-- A choice passes over a channel (R64, R67). -/
def Passed (s : State) (d : Fin 32) : Prop :=
  (s.events.channels[d]).pending = none ∨ (s.events.channels[d]).masked = true ∨ (s.tables.event d).2 = none ∨
    ∃ e, (s.tables.event d).2 = some e ∧ (e.enable = false ∨ ((s.events.channels[d]).inService = true ∧ e.policy = .queue))

/-- A channel as a choice that passes over it leaves it: one whose entry fails loses its pending edge (R12, R64). -/
def passedChannel (s : State) (d : Fin 32) : Channel :=
  if (s.events.channels[d]).masked = false ∧ (s.tables.event d).2 = none then { s.events.channels[d] with pending := none }
  else s.events.channels[d]

/-- What a choice has changed when it has passed over some channels: the entries of those asked are read, in order. -/
structure PassedOver (ds : List (Fin 32)) (s u : State) : Prop where
  state : u = { s with tables := u.tables, events := { s.events with channels := u.events.channels } }
  reads : s.tables.Reads u.tables
  channels : ∀ d : Fin 32, u.events.channels[d] = if d ∈ ds then passedChannel s d else s.events.channels[d]
  tables : u.tables = (ds.filter (asks s)).foldl (fun x d => (x.event d).1) s.tables

theorem PassedOver.nil (s : State) : PassedOver [] s s := ⟨rfl, .refl _, fun _ => rfl, rfl⟩

/-- A channel not among those passed over is asked, passed over and left as it was before. -/
theorem PassedOver.others {ds : List (Fin 32)} {s u : State} (h : PassedOver ds s u) {d : Fin 32} (other : d ∉ ds) :
    asks u d = asks s d ∧ (Passed u d ↔ Passed s d) ∧ passedChannel u d = passedChannel s d := by
  have same : u.events.channels[d] = s.events.channels[d] := (h.channels d).trans (if_neg other)
  have entry := h.reads.event d
  refine ⟨?_, ?_, ?_⟩
  · rw [asks, same]
    rfl
  · rw [Passed, same, entry]
    rfl
  · rw [passedChannel, same, entry]
    rfl

theorem PassedOver.cons {d : Fin 32} {ds : List (Fin 32)} {s u v : State} (first : PassedOver [d] s u) (rest : PassedOver ds u v) (fresh : d ∉ ds) :
    PassedOver (d :: ds) s v := by
  have others {k : Fin 32} (named : k ∈ ds) := first.others (d := k) fun same => fresh (List.mem_singleton.mp same ▸ named)
  have asked : ds.filter (asks u) = ds.filter (asks s) := List.filter_congr fun k named => (others named).1
  refine ⟨?_, first.reads.trans rest.reads, fun k => ?_, ?_⟩
  · rw [rest.state, first.state]
  · rw [rest.channels k, first.channels k]
    by_cases named : k ∈ ds
    · rw [if_pos named, if_pos (List.mem_cons_of_mem d named), (others named).2.2]
    · simp only [named, if_false, List.mem_cons, List.not_mem_nil, or_false]
  · rw [rest.tables, asked, first.tables, List.filter_cons, List.filter_cons]
    split <;> rfl

/-- A channel not pending, masked, or with a good entry, stands when it is passed over. -/
theorem passedChannel_stands {s : State} {d : Fin 32}
    (stands : (s.events.channels[d]).pending = none ∨ (s.events.channels[d]).masked = true ∨ (s.tables.event d).2 ≠ none) :
    passedChannel s d = s.events.channels[d] := by
  unfold passedChannel
  split
  · next drops =>
    have none := (stands.resolve_right fun h => h.elim (fun m => absurd (m.symm.trans drops.1) (by decide)) fun read => read drops.2)
    rw [← none]
  · rfl

theorem passedChannel_level (s : State) (d : Fin 32) : (passedChannel s d).level = (s.events.channels[d]).level := by
  unfold passedChannel
  split <;> rfl

theorem channels_stand {s : State} {d : Fin 32} (stands : passedChannel s d = s.events.channels[d]) (k : Fin 32) :
    s.events.channels[k] = if k ∈ [d] then passedChannel s k else s.events.channels[k] := by
  split
  · next named => rw [List.mem_singleton.mp named, stands]
  · rfl

/-- A choice goes on past a channel it passes over (R64, R67). -/
theorem chooseFrom_passes {s : State} {d : Fin 32} (passed : Passed s d) :
    ∃ u, (∀ rest, chooseFrom (d :: rest) s = chooseFrom rest u) ∧ PassedOver [d] s u := by
  cases pending : (s.events.channels[d]).pending with
  | none =>
    refine ⟨s, fun rest => by simp only [chooseFrom, pending], rfl, .refl _, channels_stand (passedChannel_stands (.inl pending)), ?_⟩
    · simp only [List.filter_cons, asks, pending]
      rfl
  | some edge =>
    cases masked : (s.events.channels[d]).masked with
    | true =>
      refine ⟨s, fun rest => by simp only [chooseFrom, pending, masked, if_true], rfl, .refl _, channels_stand (passedChannel_stands (.inr (.inl masked))), ?_⟩
      · simp only [List.filter_cons, asks, pending, masked]
        rfl
    | false =>
      have asked : asks s d = true := by rw [asks, pending, masked]; rfl
      cases read : (s.tables.event d).2 with
      | none =>
        refine ⟨(s.withTables (s.tables.event d).1).updChannel d fun x => { x with pending := none },
          fun rest => by simp only [chooseFrom, pending, masked, read, Bool.false_eq_true, if_false], rfl, s.tables.event_reads d, fun k => ?_, ?_⟩
        · rw [State.updChannel_events, upd_get]
          by_cases same : d = k
          · subst same
            rw [if_pos rfl, if_pos (List.mem_singleton.mpr rfl), passedChannel, if_pos ⟨masked, read⟩]
            rfl
          · rw [if_neg same, if_neg fun named => same (List.mem_singleton.mp named).symm]
            rfl
        · simp only [List.filter_cons, asked, if_true]
          rfl
      | some e =>
        have stands := channels_stand (passedChannel_stands (.inr (.inr (read ▸ Option.some_ne_none e))))
        refine ⟨s.withTables (s.tables.event d).1, fun rest => ?_, rfl, s.tables.event_reads d, stands, ?_⟩
        · have ineligible : (e.enable && (!(s.events.channels[d]).inService || e.policy == .restart)) = false := by
            rcases passed with none | hides | fails | ⟨e', read', refuses⟩
            · exact absurd (none.symm.trans pending) nofun
            · exact absurd (hides.symm.trans masked) (by decide)
            · exact absurd (fails.symm.trans read) nofun
            · obtain rfl := Option.some.inj (read'.symm.trans read)
              rcases refuses with off | ⟨serves, queues⟩
              · rw [off, Bool.false_and]
              · rw [serves, queues]
                exact Bool.and_false _
          simp only [chooseFrom, pending, masked, read, ineligible, Bool.false_eq_true, if_false]
        · simp only [List.filter_cons, asked, if_true]
          rfl

/-- A choice goes on past all the channels it passes over. -/
theorem chooseFrom_passedOver : ∀ (ds : List (Fin 32)) (s : State), ds.Nodup → (∀ d ∈ ds, Passed s d) →
    ∃ u, (∀ rest, chooseFrom (ds ++ rest) s = chooseFrom rest u) ∧ PassedOver ds s u
  | [], s, _, _ => ⟨s, fun _ => rfl, .nil s⟩
  | d :: ds, s, distinct, passed => by
    obtain ⟨fresh, distinct⟩ := List.nodup_cons.mp distinct
    obtain ⟨u, goes, first⟩ := chooseFrom_passes (passed d List.mem_cons_self)
    have later (k : Fin 32) (named : k ∈ ds) : Passed u k := by
      have other := first.others (d := k) fun same => fresh (List.mem_singleton.mp same ▸ named)
      exact other.2.1.mpr (passed k (List.mem_cons_of_mem d named))
    obtain ⟨v, goesOn, rest⟩ := chooseFrom_passedOver ds u distinct later
    exact ⟨v, fun tail => (goes (ds ++ tail)).trans (goesOn tail), first.cons rest fresh⟩

/-- PARITY counts once for each entry asked that fails (R10). -/
theorem PassedOver.counted {ds : List (Fin 32)} {s u : State} (h : PassedOver ds s u) :
    u.tables.parityCount.toNat = min 65535 (s.tables.parityCount.toNat + ds.countP fun d => asks s d && (s.tables.event d).2.isNone) := by
  have counted := foldl_countP (store := id) (step := fun (t : TableStore) (d : Fin 32) => (t.event d).1) (fails := fun t d => (t.event d).2.isNone)
    (fun t d => t.event_reads d) event_counted (fun reads => funext fun d => by rw [reads.event]) (ds.filter (asks s)) s.tables
  rw [List.countP_filter] at counted
  rw [h.tables]
  refine Eq.trans counted ?_
  simp only [Bool.and_comm, id_eq]

/-- The channels above one, from E31 down. -/
def above (c : Fin 32) : List (Fin 32) := (List.finRange 32).reverse.filter fun d => decide (c < d)

theorem mem_above {c d : Fin 32} : d ∈ above c ↔ c < d := by
  simp only [above, List.mem_filter, List.mem_reverse, List.mem_finRange, true_and, decide_eq_true_eq]

theorem above_nodup (c : Fin 32) : (above c).Nodup := (List.nodup_reverse.mpr (List.nodup_finRange 32)).filter _

/-- A choice takes the channels from E31 down: those above one, it, and those below (R64). -/
theorem reverse_finRange_split : ∀ c : Fin 32,
    (List.finRange 32).reverse = above c ++ c :: (List.finRange 32).reverse.filter fun d => decide (d < c) := by
  decide

/-! ## The channel taken -/

/-- A choice takes an eligible channel when it comes to it (R64, R67). -/
theorem chooseFrom_takes {s : State} {c : Fin 32} {edge : Edge} {e : EventEntry} (rest : List (Fin 32))
    (pending : (s.events.channels[c]).pending = some edge) (unmasked : (s.events.channels[c]).masked = false) (read : (s.tables.event c).2 = some e)
    (enabled : e.enable = true) (free : (s.events.channels[c]).inService = false ∨ e.policy = .restart) :
    chooseFrom (c :: rest) s = takeChannel s c e edge := by
  have eligible : (e.enable && (!(s.events.channels[c]).inService || e.policy == .restart)) = true := by
    rw [enabled, Bool.true_and]
    rcases free with idle | restarts
    · rw [idle]
      rfl
    · rw [restarts]
      exact Bool.or_true _
  have stands : s.withTables (s.tables.event c).1 = s := by
    rw [TableStore.event_some read]
    rfl
  simp only [chooseFrom, pending, unmasked, read, eligible, stands, Bool.false_eq_true, if_false, if_true]

/-- A channel taken, its walk still to begin: its pending edge cleared, and a chain in service cancelled (R73, R74). -/
def readyFor (s : State) (c : Fin 32) : State :=
  let taken := s.updChannel c fun x => { x with pending := none }
  if (s.events.channels[c]).inService then cancelChain taken c else taken

theorem takeChannel_none {s : State} {c : Fin 32} {e : EventEntry} {edge : Edge} (head : e.head edge = none) :
    takeChannel s c e edge = (readyFor s c).callChoice := by
  unfold takeChannel
  rw [head]
  rfl

theorem takeChannel_some {s : State} {c : Fin 32} {e : EventEntry} {edge : Edge} {i : Fin 256} (head : e.head edge = some i) :
    takeChannel s c e edge = runWalk ⟨c, none⟩ i (readyFor s c) := by
  unfold takeChannel
  rw [head]
  rfl

/-- A channel taken loses its pending edge, and no other does (R73). -/
theorem readyFor_pending (s : State) (c d : Fin 32) :
    ((readyFor s c).events.channels[d]).pending = if d = c then none else (s.events.channels[d]).pending := by
  have taken : (((s.updChannel c fun x => { x with pending := none }).events.channels[d]).pending) =
      if d = c then none else (s.events.channels[d]).pending := by
    rw [State.updChannel_events, upd_get]
    simp only [eq_comm (a := c)]
    split <;> rfl
  unfold readyFor
  simp only
  split
  · rw [cancelChain_channels, ← taken]
    split <;> rfl
  · exact taken

/-- A take leaves every pending edge but its own (R73). -/
theorem takeChannel_pending (s : State) (c : Fin 32) (e : EventEntry) (edge : Edge) (d : Fin 32) :
    ((takeChannel s c e edge).events.channels[d]).pending = if d = c then none else (s.events.channels[d]).pending := by
  rw [← readyFor_pending]
  cases head : e.head edge with
  | none =>
    rw [takeChannel_none head]
    rfl
  | some i =>
    rw [takeChannel_some head]
    exact ((ActionChains.runWalk_walked ⟨c, none⟩ i (readyFor s c)).1 d).2

/-! ## ACTION_TAKE -/

/-- No slot is DUE (R72). -/
theorem lowestSlot_none {s : State} (none : ∀ k : Fin 4, (s.engine.slots[k]).state ≠ .due) : lowestSlot s .due = Option.none :=
  List.find?_eq_none.mpr fun k _ => by
    rw [beq_iff_eq]
    exact none k

/-- With no slot DUE and a choice called for, ACTION_TAKE chooses from E31 down (R64, R72). -/
theorem execActionTake_chooses {dt : Time} {s : State} (run : s.power = .running) (none : ∀ k : Fin 4, (s.engine.slots[k]).state ≠ .due)
    (called : s.events.choiceMade = false) :
    execActionTake dt s = .next (chooseFrom (List.finRange 32).reverse (s.elapse dt)) := by
  have free : lowestSlot (s.elapse dt) .due = Option.none := lowestSlot_none none
  have asked : (s.elapse dt).events.choiceMade = false := called
  simp only [execActionTake, live_running run, free, asked, Option.isSome_none, Bool.or_self, Bool.false_eq_true, if_false]

/-- With a slot DUE, ACTION_TAKE takes no channel (R72). -/
theorem execActionTake_due {dt : Time} {s : State} (run : s.power = .running) (some : ∃ k : Fin 4, (s.engine.slots[k]).state = .due) :
    execActionTake dt s = .next (s.elapse dt) := by
  obtain ⟨k, isDue⟩ := some
  have found : (lowestSlot (s.elapse dt) .due).isSome = true :=
    List.find?_isSome.mpr ⟨k, List.mem_finRange k, beq_iff_eq.mpr isDue⟩
  simp only [execActionTake, live_running run, found, Bool.true_or, if_true]

/-- What a choice that ends with no channel taken leaves (R72). -/
theorem chooseFrom_nil (s : State) : chooseFrom [] s = { s with events := { s.events with choiceMade := true } } := rfl

/-- A choice that asks no channel reads no entry (R64). -/
theorem chooseFrom_asksNone {s : State} (none : ∀ d : Fin 32, (s.events.channels[d]).pending = Option.none ∨ (s.events.channels[d]).masked = true) :
    ∀ ds : List (Fin 32), chooseFrom ds s = { s with events := { s.events with choiceMade := true } }
  | [] => rfl
  | d :: ds => by
    have rest := chooseFrom_asksNone none ds
    cases pending : (s.events.channels[d]).pending with
    | none => simpa only [chooseFrom, pending] using rest
    | some edge =>
      have masked := (none d).resolve_left (by rw [pending]; nofun)
      simpa only [chooseFrom, pending, masked, if_true] using rest

/-- A choice that passes over every channel takes none (R64, R72). -/
theorem chooseFrom_takesNone {s : State} (passed : ∀ d, Passed s d) :
    ∃ u, chooseFrom (List.finRange 32).reverse s = { u with events := { u.events with choiceMade := true } } ∧
      PassedOver (List.finRange 32).reverse s u := by
  obtain ⟨u, goes, past⟩ := chooseFrom_passedOver (List.finRange 32).reverse s (List.nodup_reverse.mpr (List.nodup_finRange 32)) fun d _ => passed d
  have ends := goes []
  rw [List.append_nil, chooseFrom_nil] at ends
  exact ⟨u, ends, past⟩

/-- Settles O28: the channels above the one taken passed over, the take and its walk, a cancellation slot by slot, and the choices that take none. -/
theorem actionTakeTakesHighestEligible : Obligations.ActionTakeTakesHighestEligible := by
  refine ⟨?_, fun s c => ⟨cancelChain_fields s c, cancelChain_slots s c, cancelChain_channels s c⟩, ?_⟩
  · intro dt s c edge e run free called passed pending unmasked read enabled serves asked
    obtain ⟨u, goes, past⟩ := chooseFrom_passedOver (above c) (s.elapse dt) (above_nodup c) fun d named => passed d (mem_above.mp named)
    have self : c ∉ above c := fun named => lt_irrefl c (mem_above.mp named)
    have same : u.events.channels[c] = s.events.channels[c] := (past.channels c).trans (if_neg self)
    have takes : chooseFrom (List.finRange 32).reverse (s.elapse dt) = takeChannel u c e edge := by
      rw [reverse_finRange_split c, goes]
      exact chooseFrom_takes _ (same ▸ pending) (same ▸ unmasked) ((past.reads.event c).trans read) enabled (same ▸ serves)
    have touched := takeChannel_engine u c e edge
    have others := takeChannel_pending u c e edge
    refine ⟨takeChannel u c e edge, u, (execActionTake_chooses run free called).trans (congrArg Host.Outcome.next takes), ?_, ?_, past.reads.1, past.state,
      fun d => ?_, ?_, ?_, ?_, fun d other => ?_, fun d => ?_, ?_, ?_⟩
    · obtain ⟨t, a, b, events, n, l, f, g, same', reads, _⟩ := touched
      rw [same']
      exact (past.reads.trans reads).1
    · obtain ⟨t, a, b, events, n, l, f, g, same', _⟩ := touched
      rw [same', past.state]
      rfl
    · rw [past.channels d]
      simp only [mem_above, passedChannel]
      by_cases higher : c < d
      · simp only [higher, if_true, true_and]
        rfl
      · simp only [higher, if_false, false_and]
        rfl
    · have asking : (fun d => asks (s.elapse dt) d && decide (c < d)) = fun d => decide (c < d) && asked d :=
        funext fun d => Bool.and_comm _ _
      rw [past.tables, above, List.filter_filter, asking]
      rfl
    · have counted := past.counted
      rw [above, List.countP_filter, List.countP_reverse] at counted
      have asking : (fun d => (asks (s.elapse dt) d && (s.tables.event d).2.isNone) && decide (c < d)) =
          fun d => decide (c < d) && asked d && (s.tables.event d).2.isNone :=
        funext fun d => (Bool.and_comm _ _).trans (Bool.and_assoc _ _ _).symm
      rw [State.elapse_tables, asking] at counted
      exact counted
    · exact (others c).trans (if_pos rfl)
    · exact (others d).trans (if_neg other)
    · obtain ⟨t, a, b, events, n, l, f, g, same', _, _, _, _, _, _, levels⟩ := touched
      rw [same']
      refine (levels d).trans ?_
      rw [past.channels d]
      split
      · exact passedChannel_level _ d
      · rfl
    · obtain ⟨t, a, b, events, n, l, f, g, same', _, _, _, _, _, lost, _⟩ := touched
      rw [same']
      refine lost.trans ?_
      rw [past.state]
      rfl
    · intro taken ready
      have prepared : ready = readyFor u c := by rw [readyFor, same]
      rw [prepared]
      exact ⟨fun head => takeChannel_none head, fun i head => takeChannel_some head⟩
  · intro dt s run
    refine ⟨fun due => execActionTake_due run due, fun free called none => ?_, fun free called passed => ?_⟩
    · exact (execActionTake_chooses run free called).trans (congrArg Host.Outcome.next (chooseFrom_asksNone (s := s.elapse dt) none _))
    · intro asked
      obtain ⟨u, ends, past⟩ := chooseFrom_takesNone (s := s.elapse dt) passed
      refine ⟨_, (execActionTake_chooses run free called).trans (congrArg Host.Outcome.next ends), past.reads.1, past.tables, ?_, ?_, fun d => ?_⟩
      · have counted := past.counted
        rw [List.countP_reverse] at counted
        exact counted
      · rw [past.state]
        rfl
      · exact (past.channels d).trans (if_pos (List.mem_reverse.mpr (List.mem_finRange d)))

end Sys2Proof.Machine.EngineChoice
end

section
/-! PROOFS. The walk of a routed frame (R37 to R43, R47 to R49, R52): what it leaves, when its source is heard, how its chain ends, the copies it offers, and
the expiry of a watch. -/

namespace Sys2Proof.Machine.RouteWalks

/-! ## A source heard -/

/-- The record of a source heard now (R40). -/
def heardNow (s : State) (e : DirectoryEntry) : SourceRecord := ⟨.heard, watchDeadline s.now e.watch⟩

/-- A source not SILENT is heard with no report (R40). -/
theorem hear_audible {s : State} {src : Fin 64} (e : DirectoryEntry) (audible : (s.routes.sources[src]).heard ≠ .silent) :
    hear s src e = s.updSource src fun _ => heardNow s e := by
  unfold hear
  exact if_neg audible

/-- A SILENT source is heard, and reported OPEN to its silence channel (R40, R52). -/
theorem hear_silent {s : State} {src : Fin 64} (e : DirectoryEntry) (silent : (s.routes.sources[src]).heard = .silent) :
    hear s src e = reportTo (s.updSource src fun _ => heardNow s e) e.silence false := by
  unfold hear
  exact if_pos silent

/-- Hearing a source writes its record, and otherwise makes a report at most. -/
theorem hear_touches (s : State) (src : Fin 64) (e : DirectoryEntry) : TouchesEvents (s.updSource src fun _ => heardNow s e) (hear s src e) := by
  by_cases silent : (s.routes.sources[src]).heard = .silent
  · rw [hear_silent e silent]
    exact reportTo_touches _ _ _
  · rw [hear_audible e silent]
    exact .refl _

/-- Hearing a source leaves the counters, and every other source (R40). -/
theorem hear_routes (s : State) (src : Fin 64) (e : DirectoryEntry) :
    (hear s src e).routes = { s.routes with sources := upd s.routes.sources src fun _ => heardNow s e } := by
  obtain ⟨t, x, touched, _⟩ := hear_touches s src e
  rw [touched]
  rfl

theorem hear_reads (s : State) (src : Fin 64) (e : DirectoryEntry) : s.tables.Reads (hear s src e).tables := by
  obtain ⟨t, x, touched, reads, _⟩ := hear_touches s src e
  rw [touched]
  exact reads

/-! ## The walk of a frame, case by case -/

section Frame

variable {s : State} {p : PortId} {f : Frame}

/-- A routed frame is walked, and its pool released (R37). -/
theorem execRouteWalk_routed (dt : Time) (serves : s.Serves p .routed f) :
    execRouteWalk dt p s = .next ((routeFrame (s.elapse dt) p f).releasePool p) := by
  simp only [execRouteWalk, live_running serves.1, State.port_elapse, serves.2]

theorem routeFrame_failing (read : (s.tables.directory f.src).2 = none) : routeFrame s p f = s.withTables (s.tables.directory f.src).1 := by
  simp only [routeFrame, read]

variable {e : DirectoryEntry}

/-- A slot that reads good leaves the store (R10). -/
theorem withTables_directory (read : (s.tables.directory f.src).2 = some e) : s.withTables (s.tables.directory f.src).1 = s := by
  rw [TableStore.directory_some read]
  rfl

theorem routeFrame_refused (read : (s.tables.directory f.src).2 = some e) (refuses : e.home.admits p = false) : routeFrame s p f = s.countMiss := by
  simp only [routeFrame, read, refuses, withTables_directory read, Bool.false_eq_true, if_false]

theorem routeFrame_heard (read : (s.tables.directory f.src).2 = some e) (admits : e.home.admits p = true) :
    routeFrame s p f = walkRoute (hear s f.src e) p e f := by
  simp only [routeFrame, read, admits, withTables_directory read, if_true]

theorem walkRoute_noHead (head : e.head = none) : walkRoute s p e f = s.countMiss := by
  simp only [walkRoute, head]

/-- What a walk does with the way its chain was found to end (R41 to R43). -/
def endWalk (s : State) (p : PortId) (f : Frame) : Matching → State
  | .matched r => performRoute s p r f
  | .miss => s.countMiss
  | .failing => s

/-- A walk from a head reads its chain, and does what it found (R41 to R43). -/
theorem walkRoute_head {i : Fin 128} (head : e.head = some i) :
    walkRoute s p e f = endWalk (s.withTables (findRoute f.kind 8 i.val s.tables).1) p f (findRoute f.kind 8 i.val s.tables).2 := by
  simp only [walkRoute, head]
  rfl

theorem walkRoute_found {i : Fin 128} {t : TableStore} {m : Matching} (head : e.head = some i) (found : findRoute f.kind 8 i.val s.tables = (t, m)) :
    walkRoute s p e f = endWalk (s.withTables t) p f m := by
  rw [walkRoute_head head, found]

end Frame

/-! ## The chain -/

section Chain

variable {t : TableStore} {kind : Fin 16} {i : Fin 128}

theorem route_some {r : RouteEntry} (read : (t.route i).2 = some r) : (t.route i).1 = t := by
  obtain ⟨_, words, _⟩ := Option.map_eq_some_iff.mp read
  exact TableStore.readBlock_some words

theorem index_within (i : Fin 128) : 0 ≤ (i.val : Int) ∧ (i.val : Int) ≤ 127 := by omega

theorem index_ofNat (i : Fin 128) : Fin.ofNat 128 (i.val : Int).toNat = i := Fin.ext (Nat.mod_eq_of_lt i.isLt)

/-- A matching entry ends the reading of its chain (R41). -/
theorem findRoute_matched {r : RouteEntry} (n : Nat) (read : (t.route i).2 = some r) (same : r.kind = kind) :
    findRoute kind (n + 1) i.val t = (t, .matched r) := by
  simp only [findRoute, if_pos (index_within i), index_ofNat, read, route_some read, if_pos same]

/-- A failing entry ends it (R43, R12). -/
theorem findRoute_failing (n : Nat) (read : (t.route i).2 = none) : findRoute kind (n + 1) i.val t = ((t.route i).1, .failing) := by
  simp only [findRoute, if_pos (index_within i), index_ofNat, read]

/-- An entry of another kind and a link of 0 end it with a miss (R42). -/
theorem findRoute_last {r : RouteEntry} (n : Nat) (read : (t.route i).2 = some r) (other : r.kind ≠ kind) (ends : r.link = 0) :
    findRoute kind (n + 1) i.val t = (t, .miss) := by
  simp only [findRoute, if_pos (index_within i), index_ofNat, read, route_some read, if_neg other, if_pos ends]

/-- An entry of another kind with a link is gone on from (R41). -/
theorem findRoute_onward {r : RouteEntry} (n : Nat) (read : (t.route i).2 = some r) (other : r.kind ≠ kind) (links : r.link ≠ 0) :
    findRoute kind (n + 1) i.val t = findRoute kind n (i.val + r.link) t := by
  simp only [findRoute, if_pos (index_within i), index_ofNat, read, route_some read, if_neg other, if_neg links]

/-- With no entry left to read, or a next entry outside 0 to 127, the chain is missed (R42). -/
theorem findRoute_beyond (n : Nat) {j : Int} (beyond : n = 0 ∨ j < 0 ∨ 127 < j) : findRoute kind n j t = (t, .miss) := by
  cases n with
  | zero => rfl
  | succ n =>
    have outside : ¬(0 ≤ j ∧ j ≤ 127) := by omega
    simp only [findRoute, if_neg outside]

/-- A chain is read from entry to entry by the links (R41). -/
theorem findRoute_chain (n : Nat) : ∀ (m : Nat) (i : Nat → Fin 128) (r : Nat → RouteEntry),
    (∀ k < m, (t.route (i k)).2 = some (r k) ∧ (r k).kind ≠ kind ∧ (r k).link ≠ 0 ∧ ((i (k + 1)).val : Int) = (i k).val + (r k).link) →
    findRoute kind (n + m) (i 0).val t = findRoute kind n (i m).val t
  | 0, _, _, _ => rfl
  | m + 1, i, r, links => by
    obtain ⟨read, other, moves, next⟩ := links 0 (Nat.succ_pos m)
    have rest := findRoute_chain n m (fun k => i (k + 1)) (fun k => r (k + 1)) fun k below => links (k + 1) (Nat.succ_lt_succ below)
    exact ((findRoute_onward (n + m) read other moves).trans (congrArg (findRoute kind (n + m) · t) next.symm)).trans rest

end Chain

/-! ## What an action leaves -/

/-- An action leaves the source records, and every counter of the engine but REPORT-ERROR (R44 to R48). -/
theorem performRoute_routes (s : State) (p : PortId) (r : RouteEntry) (f : Frame) :
    (performRoute s p r f).routes = { s.routes with reportError := (performRoute s p r f).routes.reportError } := by
  have also {u : State} (h : u.routes = { s.routes with reportError := u.routes.reportError }) :
      (if r.alsoForward then forward u p r f else u).routes =
        { s.routes with reportError := (if r.alsoForward then forward u p r f else u).routes.reportError } := by
    split
    · rw [forward, State.setPort_routes]
      exact h
    · exact h
  unfold performRoute
  simp only
  split
  · obtain ⟨t, x, touched, _⟩ := routeSwitch_touches s r f.payload
    exact also (by rw [touched])
  · obtain ⟨t, x, v, g, touched, _⟩ := routeSender_touches s r f.payload
    exact also (by rw [touched])
  · refine also ?_
    unfold routeReport
    simp only
    split
    · split
      · next P _ _ =>
        obtain ⟨t, a, b, l, touched, _⟩ := takeReport_touches (s.withTables (matchPod f.src (List.finRange 12) s.tables).1) P f.payload
        rw [touched]
        rfl
      · rfl
    · rfl
  · rw [forward, State.setPort_routes]
  · rfl

/-- A walk leaves the source records (R40). -/
theorem walkRoute_sources (s : State) (p : PortId) (e : DirectoryEntry) (f : Frame) : (walkRoute s p e f).routes.sources = s.routes.sources := by
  cases head : e.head with
  | none =>
    rw [walkRoute_noHead head]
    rfl
  | some i =>
    rw [walkRoute_head head]
    unfold endWalk
    split
    · rw [performRoute_routes]
      rfl
    · rfl
    · rfl

/-- A walk touches the record of its own source alone (R40). -/
theorem routeFrame_sources (s : State) (p : PortId) (f : Frame) {a : Fin 64} (other : a ≠ f.src) :
    (routeFrame s p f).routes.sources[a] = s.routes.sources[a] := by
  cases read : (s.tables.directory f.src).2 with
  | none =>
    rw [routeFrame_failing read]
    rfl
  | some e =>
    cases admits : e.home.admits p with
    | false =>
      rw [routeFrame_refused read admits]
      rfl
    | true =>
      rw [routeFrame_heard read admits, walkRoute_sources, hear_routes]
      exact upd_other _ _ other.symm

theorem releasePool_routes (s : State) (p : PortId) : (s.releasePool p).routes = s.routes := State.setPort_routes _ _ _

theorem releasePool_withTables (s : State) (t : TableStore) (p : PortId) :
    (s.withTables t).releasePool p = { s.setPort p (s.port p).release with tables := t } := by cases p <;> rfl

theorem releasePool_countMiss (s : State) (p : PortId) :
    s.countMiss.releasePool p = { s.setPort p (s.port p).release with routes := { s.routes with routeMiss := s.routes.routeMiss.bump } } := by
  cases p <;> rfl

/-- Settles O21: the source heard or not, the chain read entry by entry, and the ways it ends. -/
theorem routedFrameIsHeardOrMissed : Obligations.RoutedFrameIsHeardOrMissed := by
  refine ⟨fun dt p s f serves => ⟨⟨_, execRouteWalk_routed dt serves, fun a other => ?_, fun e read admits => ?_, fun e read refuses => ?_,
    fun e read admits head => ?_, fun read => ?_⟩, ?_⟩, ?_⟩
  · rw [releasePool_routes]
    exact routeFrame_sources (s.elapse dt) p f other
  · rw [routeFrame_heard (s := s.elapse dt) read admits, releasePool_routes, walkRoute_sources, hear_routes]
    exact upd_self _ _ _
  · rw [routeFrame_refused (s := s.elapse dt) read refuses, releasePool_countMiss, State.port_elapse]
    rfl
  · rw [routeFrame_heard (s := s.elapse dt) read admits, releasePool_routes, walkRoute_noHead head]
    simp only [State.countMiss, hear_routes]
    exact ⟨rfl, rfl⟩
  · rw [routeFrame_failing (s := s.elapse dt) read, releasePool_withTables, State.port_elapse]
    exact ⟨rfl, TableStore.readBlock_none (Option.map_eq_none_iff.mp read)⟩
  · intro e read admits u ends i r n few head links
    have reading (k : Fin 128) : (u.tables.route k).2 = (s.tables.route k).2 := (hear_reads (s.elapse dt) f.src e).route k
    obtain ⟨m, budget⟩ : ∃ m, 8 = m + 1 + n := ⟨7 - n, by omega⟩
    have chain : findRoute f.kind 8 (i 0).val u.tables = findRoute f.kind (m + 1) (i n).val u.tables := by
      rw [budget]
      refine findRoute_chain (m + 1) n i r fun k below => ?_
      rw [reading]
      exact links k below
    have finish {t : TableStore} {x : Matching} (found : findRoute f.kind (m + 1) (i n).val u.tables = (t, x)) :
        ends (endWalk (u.withTables t) p f x) := by
      refine (execRouteWalk_routed dt serves).trans (congrArg Host.Outcome.next ?_)
      have walked : routeFrame (s.elapse dt) p f = endWalk (u.withTables t) p f x :=
        (routeFrame_heard (s := s.elapse dt) read admits).trans (walkRoute_found head (chain.trans found))
      rw [walked]
      rfl
    refine ⟨fun x entry => ⟨fun same => ?_, fun other last => ?_⟩, fun fails => ?_⟩
    · exact finish (findRoute_matched m ((reading (i n)).trans entry) same)
    · have entry := (reading (i n)).trans entry
      by_cases zero : x.link = 0
      · exact finish (findRoute_last m entry other zero)
      · have beyond : m = 0 ∨ ((i n).val : Int) + x.link < 0 ∨ 127 < ((i n).val : Int) + x.link := by omega
        exact finish ((findRoute_onward m entry other zero).trans (findRoute_beyond m beyond))
    · exact finish (findRoute_failing m ((reading (i n)).trans fails))
  · intro s src e u
    refine ⟨fun audible => hear_audible e audible, fun silent none => ?_, fun c silent some => ?_⟩
    · rw [hear_silent e silent, none]
      rfl
    · rw [hear_silent e silent, some]
      rfl

/-! ## Copies -/

/-- The copy an entry forwards (R47). -/
def copyOf (r : RouteEntry) (f : Frame) : Frame := ⟨if r.rewrite = 0 then f.dest else r.rewrite, f.src, f.kind, f.payload⟩

theorem forward_eq (s : State) (p : PortId) (r : RouteEntry) (f : Frame) :
    forward s p r f = s.setPort p.other ((s.port p.other).offerCopy (copyOf r f)) := rfl

/-- The also-forward flag of a SWITCH, SENDER or REPORT entry asks for a copy after its action (R48). -/
theorem performRoute_also {s : State} {p : PortId} {r : RouteEntry} {f : Frame} (also : r.alsoForward = true)
    (acts : r.action = .switch ∨ r.action = .sender ∨ r.action = .report) :
    performRoute s p r f = forward (performRoute s p { r with alsoForward := false } f) p r f := by
  rcases acts with action | action | action <;> simp only [performRoute, action, also, Bool.false_eq_true, if_true, if_false] <;> rfl

theorem performRoute_forward {s : State} {p : PortId} {r : RouteEntry} {f : Frame} (action : r.action = .forward) :
    performRoute s p r f = forward s p r f := by
  simp only [performRoute, action]

theorem performRoute_drop {s : State} {p : PortId} {r : RouteEntry} {f : Frame} (action : r.action = .drop) : performRoute s p r f = s := by
  simp only [performRoute, action]

section First

variable {s : State} {p : PortId} {f : Frame} {e : DirectoryEntry} {i : Fin 128} {r : RouteEntry}

/-- A frame whose chain begins with a matching entry: its source heard, the entry performed (R38 to R41). -/
theorem routeFrame_first (read : (s.tables.directory f.src).2 = some e) (admits : e.home.admits p = true) (head : e.head = some i)
    (entry : (s.tables.route i).2 = some r) (same : r.kind = f.kind) : routeFrame s p f = performRoute (hear s f.src e) p r f := by
  have reading := ((hear_reads s f.src e).route i).trans entry
  rw [routeFrame_heard read admits, walkRoute_found head (findRoute_matched 7 reading same)]
  rfl

end First

/-- Settles O23: the copy of a FORWARD, none of a DROP, and the copy an also-forward flag adds. -/
theorem forwardCopiesAndDropDiscards : Obligations.ForwardCopiesAndDropDiscards := by
  refine ⟨fun dt p s f e i r serves read admits audible head entry same => ?_, fun s p r f => ⟨fun also acts => ?_, fun acts => ?_⟩⟩
  · intro heard
    have first := routeFrame_first (s := s.elapse dt) read admits head entry same
    have hears : hear (s.elapse dt) f.src e = heard := hear_audible (s := s.elapse dt) e audible
    rw [hears] at first
    refine ⟨fun action => ?_, fun action => ?_⟩
    · refine (execRouteWalk_routed dt serves).trans (congrArg Host.Outcome.next ?_)
      rw [first, performRoute_forward action, forward_eq]
      cases p <;> rfl
    · refine (execRouteWalk_routed dt serves).trans (congrArg Host.Outcome.next ?_)
      rw [first, performRoute_drop action]
      cases p <;> rfl
  · exact performRoute_also also acts
  · rcases acts with action | action
    · exact (performRoute_forward action).trans (performRoute_forward (r := { r with alsoForward := false }) action).symm
    · exact (performRoute_drop action).trans (performRoute_drop (r := { r with alsoForward := false }) action).symm

/-! ## A watch that expires -/

/-- A watch that is due expires (R49). -/
theorem execWatchExpiry_due {dt : Time} {src : Fin 64} {s : State} (run : s.power = .running) (expired : Due (s.routes.sources[src]).watch (s.now + dt)) :
    execWatchExpiry dt src s = .next (expireWatch (s.elapse dt) src) := by
  have ended : due ((s.elapse dt).routes.sources[src]).watch (s.elapse dt).now = true := EventChannels.due_iff.mpr expired
  simp only [execWatchExpiry, live_running run, ended, if_true]

/-- With its period read as 0, the timer stops and the heard state stands (R49). -/
theorem expireWatch_unwatched {s : State} {src : Fin 64} {e : DirectoryEntry} (read : (s.tables.directory src).2 = some e) (none : e.watch = 0) :
    expireWatch s src = s.updSource src fun x => { x with watch := Option.none } := by
  simp only [expireWatch, read, none, if_true, TableStore.directory_some read]
  rfl

/-- With its slot failing, the source falls SILENT with no report (R10, R49). -/
theorem expireWatch_failing {s : State} {src : Fin 64} (read : (s.tables.directory src).2 = none) :
    expireWatch s src = (s.updSource src fun _ => ⟨.silent, none⟩).withTables (s.tables.directory src).1 := by
  simp only [expireWatch, read, State.updSource, EventChannels.upd_upd]
  rfl

/-- With a period of 1 to 15 the source falls SILENT, and its silence is reported (R49, R52). -/
theorem expireWatch_reports {s : State} {src : Fin 64} {e : DirectoryEntry} (read : (s.tables.directory src).2 = some e) (watched : e.watch ≠ 0) :
    expireWatch s src = reportTo (s.updSource src fun _ => ⟨.silent, none⟩) e.silence true := by
  rw [expireWatch_silent read watched]
  simp only [State.updSource, EventChannels.upd_upd]

/-- A report gives its channel its level, and no other channel (R58, R59). -/
theorem reportLevel_level (s : State) (c : Fin 32) (closed : Bool) (k : Fin 32) :
    ((reportLevel s c closed).events.channels[k]).level = if c = k then levelOf closed else (s.events.channels[k]).level := by
  have moved : ((upd s.events.channels c fun x => { x with level := levelOf closed })[k]).level =
      if c = k then levelOf closed else (s.events.channels[k]).level := by
    rw [upd_get]
    split <;> rfl
  have accepted (edge : Edge) (b : EventBlock) : ((b.acceptEdge c edge).channels[k]).level = (b.channels[k]).level := by
    simp only [EventBlock.acceptEdge, upd_get]
    split <;> rfl
  unfold reportLevel EventBlock.report
  simp only
  split
  · exact moved
  · split
    · split
      · exact (accepted _ _).trans moved
      · exact moved
    · exact moved

/-- A watch that expires touches the record of its source alone (R49). -/
theorem expireWatch_sources (s : State) {src a : Fin 64} (other : a ≠ src) : (expireWatch s src).routes.sources[a] = s.routes.sources[a] := by
  cases read : (s.tables.directory src).2 with
  | none =>
    rw [expireWatch_failing read]
    exact upd_other _ _ other.symm
  | some e =>
    by_cases none : e.watch = 0
    · rw [expireWatch_unwatched read none]
      exact upd_other _ _ other.symm
    · rw [expireWatch_reports read none]
      obtain ⟨t, x, report, _⟩ := reportTo_touches (s.updSource src fun _ => ⟨.silent, Option.none⟩) e.silence true
      rw [report]
      exact upd_other _ _ other.symm

/-- Settles O25, by the slot as the expiry reads it. -/
theorem watchExpiryFindsSilence : Obligations.WatchExpiryFindsSilence := by
  intro dt src s run expired silent
  obtain ⟨t, x, ⟨sources, _, _⟩, touched, reads, _, rfl, rfl⟩ := expireWatch_touches (s.elapse dt) src
  refine ⟨_, execWatchExpiry_due run expired, ?_, ?_, fun a other => ?_, fun e read watched => ⟨?_, fun c names => ?_, fun none => ?_⟩, fun e read none => ?_,
    fun fails => ?_⟩
  · rw [touched]
    exact reads.1
  · rw [touched]
    rfl
  · exact expireWatch_sources (s.elapse dt) other
  · rw [expireWatch_reports (s := s.elapse dt) read watched]
    obtain ⟨t, x, report, _⟩ := reportTo_touches ((s.elapse dt).updSource src fun _ => ⟨.silent, none⟩) e.silence true
    rw [report]
    exact upd_self _ _ _
  · have reported : expireWatch (s.elapse dt) src = reportLevel silent c true := by
      rw [expireWatch_reports (s := s.elapse dt) read watched, names]
      rfl
    rw [reported]
    exact ⟨rfl, (reportLevel_level silent c true c).trans (if_pos rfl)⟩
  · rw [expireWatch_reports (s := s.elapse dt) read watched, none]
    rfl
  · exact expireWatch_unwatched (s := s.elapse dt) read none
  · rw [expireWatch_failing (s := s.elapse dt) fails]
    exact ⟨rfl, TableStore.readBlock_none (Option.map_eq_none_iff.mp fails)⟩

end Sys2Proof.Machine.RouteWalks
end

section
/-! PROOFS. One sample presented to a descriptor, and CONVERSION's four (R128, R132, R133, R135, R144). -/

namespace Sys2Proof.Machine.SamplePresentation

/-! ## The record of a sample -/

/-- A record that has taken a sample: its window completed when it is full (R132, R133). -/
def sampled (e : DescriptorEntry) (code : Nat) (now : Time) (r : DescriptorRecord) : DescriptorRecord :=
  let a := r.accept e code now
  if a.window = some a.held then a.complete e a.held else a

/-- A record after a sample presented to it: a failing entry discards the sample (R12, R132). -/
def taken (t : TableStore) (now : Time) (d : Fin 16) (code : Nat) (r : DescriptorRecord) : DescriptorRecord :=
  match (t.descriptor d).2 with
  | some e => sampled e code now r
  | none => r

theorem taken_some {t : TableStore} {d : Fin 16} {e : DescriptorEntry} (read : (t.descriptor d).2 = some e) (now : Time) (code : Nat)
    (r : DescriptorRecord) : taken t now d code r = sampled e code now r := by
  rw [taken, read]

theorem taken_none {t : TableStore} {d : Fin 16} (read : (t.descriptor d).2 = none) (now : Time) (code : Nat) (r : DescriptorRecord) :
    taken t now d code r = r := by
  rw [taken, read]

theorem taken_congr {t u : TableStore} (reads : t.Reads u) (now : Time) (d : Fin 16) (code : Nat) (r : DescriptorRecord) :
    taken u now d code r = taken t now d code r := by
  rw [taken, taken, reads.descriptor]

/-! ## What is announced -/

/-- A window announced: what its report leaves, with the average handed over (R133, R135). -/
theorem announceWindow_eq (s : State) (d : Fin 16) (e : DescriptorEntry) (before after : ThresholdState) (average : Nat) :
    announceWindow s d e before after average =
      handReading (if after = before then s else reportTo s e.channel (after == .active)) (.descriptor d) average := rfl

/-- The report of a window reaches the channels alone (R135). -/
theorem windowReport_touches (s : State) (e : DescriptorEntry) (before after : ThresholdState) :
    TouchesEvents s (if after = before then s else reportTo s e.channel (after == .active)) := by
  split
  · exact .refl s
  · exact reportTo_touches _ _ _

/-- An announcement leaves the sampler. -/
theorem announceWindow_sampler (s : State) (d : Fin 16) (e : DescriptorEntry) (before after : ThresholdState) (average : Nat) :
    (announceWindow s d e before after average).sampler = s.sampler := by
  obtain ⟨t, v, told, _⟩ := windowReport_touches s e before after
  rw [announceWindow_eq, told]
  rfl

/-! ## A sample presented -/

section Present

variable {s : State} {d : Fin 16} {code : Nat} {e : DescriptorEntry}

theorem presentSample_failing (read : (s.tables.descriptor d).2 = none) : presentSample s d code = s.withTables (s.tables.descriptor d).1 := by
  simp only [presentSample, read]

/-- A DESCRIPTOR entry that reads good leaves the store as it was (R10). -/
theorem withTables_descriptor (read : (s.tables.descriptor d).2 = some e) : s.withTables (s.tables.descriptor d).1 = s := by
  obtain ⟨_, words, _⟩ := Option.map_eq_some_iff.mp read
  have same : (s.tables.descriptor d).1 = s.tables := TableStore.readBlock_some words
  rw [same]
  rfl

/-- A sample that leaves its window unfilled changes its record alone (R132). -/
theorem presentSample_short (read : (s.tables.descriptor d).2 = some e)
    (short : ((s.sampler.descriptors[d]).accept e code s.now).window ≠ some ((s.sampler.descriptors[d]).accept e code s.now).held) :
    presentSample s d code = s.updDescriptor d fun _ => (s.sampler.descriptors[d]).accept e code s.now := by
  simp only [presentSample, read, withTables_descriptor read]
  split
  · next n window =>
    rw [window] at short
    exact if_neg fun full => short (congrArg some full.symm)
  · rfl

/-- One that fills it completes the record, and the window is announced (R133, R135). -/
theorem presentSample_full (read : (s.tables.descriptor d).2 = some e)
    (full : ((s.sampler.descriptors[d]).accept e code s.now).window = some ((s.sampler.descriptors[d]).accept e code s.now).held) :
    presentSample s d code =
      let a := (s.sampler.descriptors[d]).accept e code s.now
      announceWindow (s.updDescriptor d fun _ => a.complete e a.held) d e a.threshold (a.complete e a.held).threshold (averageOf a.sum a.held) := by
  simp only [presentSample, read, withTables_descriptor read, full, if_true]

end Present

/-- A sample rewrites its own descriptor, and no other (R132). -/
theorem presentSample_descriptors (s : State) (d : Fin 16) (code : Nat) :
    (presentSample s d code).sampler.descriptors = upd s.sampler.descriptors d (taken s.tables s.now d code) := by
  cases read : (s.tables.descriptor d).2 with
  | none =>
    rw [presentSample_failing read, EventChannels.upd_of_fixed (taken_none read s.now code _)]
    rfl
  | some e =>
    have record (r : DescriptorRecord) (is : sampled e code s.now s.sampler.descriptors[d] = r) :
        upd s.sampler.descriptors d (taken s.tables s.now d code) = upd s.sampler.descriptors d fun _ => r := by
      rw [upd, upd, taken_some read, is]
    by_cases full : ((s.sampler.descriptors[d]).accept e code s.now).window = some ((s.sampler.descriptors[d]).accept e code s.now).held
    · rw [presentSample_full read full, announceWindow_sampler, record _ (if_pos full)]
      rfl
    · rw [presentSample_short read full, record _ (if_neg full)]
      rfl

/-- A sample leaves the clock. -/
theorem presentSample_now (s : State) (d : Fin 16) (code : Nat) : (presentSample s d code).now = s.now := by
  obtain ⟨t, e, v, g, touched, _⟩ := presentSample_touches s d code
  rw [touched]

theorem presentSample_reads (s : State) (d : Fin 16) (code : Nat) : s.tables.Reads (presentSample s d code).tables := by
  obtain ⟨t, e, v, g, touched, reads, _⟩ := presentSample_touches s d code
  rw [touched]
  exact reads

/-! ## Samples presented one after another -/

/-- Samples for different descriptors reach them as if each were presented alone (R128). -/
theorem foldl_presentSample : ∀ (xs : List (Fin 16 × BitVec 10)) (s : State), (xs.map Prod.fst).Nodup →
    (∀ d ∉ xs.map Prod.fst, (xs.foldl (fun s x => presentSample s x.1 x.2.toNat) s).sampler.descriptors[d] = s.sampler.descriptors[d]) ∧
    ∀ x ∈ xs, (xs.foldl (fun s x => presentSample s x.1 x.2.toNat) s).sampler.descriptors[x.1] =
      taken s.tables s.now x.1 x.2.toNat s.sampler.descriptors[x.1]
  | [], _, _ => ⟨fun _ _ => rfl, fun _ none => absurd none List.not_mem_nil⟩
  | (d, code) :: xs, s, distinct => by
    obtain ⟨fresh, distinct⟩ := List.nodup_cons.mp distinct
    obtain ⟨others, named⟩ := foldl_presentSample xs (presentSample s d code.toNat) distinct
    refine ⟨fun k unnamed => ?_, fun x member => ?_⟩
    · obtain ⟨head, tail⟩ := List.ne_and_not_mem_of_not_mem_cons unnamed
      refine (others k tail).trans ?_
      rw [presentSample_descriptors]
      exact upd_other _ _ head.symm
    · rcases List.mem_cons.mp member with rfl | later
      · refine (others d fresh).trans ?_
        rw [presentSample_descriptors]
        exact upd_self _ _ _
      · have other : d ≠ x.1 := fun same => fresh (same ▸ (List.mem_map_of_mem later : x.1 ∈ xs.map Prod.fst))
        refine (named x later).trans ?_
        rw [taken_congr (presentSample_reads s d code.toNat), presentSample_now, presentSample_descriptors, upd_other _ _ other]

/-- Samples presented one after another touch what one touches. -/
theorem foldl_presentSample_touches : ∀ (xs : List (Fin 16 × BitVec 10)) (s : State),
    TouchesSamples s (xs.foldl (fun s x => presentSample s x.1 x.2.toNat) s)
  | [], s => .refl s
  | x :: xs, s => (presentSample_touches s x.1 x.2.toNat).trans (foldl_presentSample_touches xs (presentSample s x.1 x.2.toNat))

/-- Of a gauge only the target is moved by a sample (R144). -/
theorem target_alone {d e : GaugeDrive} (h : d.Retargeted e) (g : Fin 4) : e.gauges[g] = { d.gauges[g] with target := (e.gauges[g]).target } := by
  have same := h.1 g
  generalize e.gauges[g] = x at same ⊢
  generalize d.gauges[g] = y at same ⊢
  cases x
  cases y
  obtain ⟨rfl, rfl, rfl, rfl, rfl⟩ := same
  rfl

/-- The four codes of a CONVERSION, each with its descriptor (R128). -/
abbrev codes (c0 c1 c2 c3 : BitVec 10) : List (Fin 16 × BitVec 10) := [(0, c0), (1, c1), (2, c2), (3, c3)]

/-- The state in which a CONVERSION presents its codes, its timer gone on (R127). -/
def converting (dt : Time) (s : State) : State :=
  { s with now := s.now + dt, sampler := { s.sampler with conversionTimer := s.sampler.conversionTimer + 20000 } }

/-- CONVERSION on time presents its four codes (R127, R128). -/
theorem execConversion_due {dt : Time} {c0 c1 c2 c3 : BitVec 10} {s : State} (run : s.power = .running) (onTime : s.sampler.conversionTimer ≤ s.now + dt) :
    execConversion dt c0 c1 c2 c3 s =
      .next ((codes c0 c1 c2 c3).foldl (fun s x => presentSample s x.1 x.2.toNat) (converting dt s)) := by
  have late : (s.elapse dt).sampler.conversionTimer ≤ (s.elapse dt).now := onTime
  simp only [execConversion, live_running run, late, if_true]
  rfl

/-- Settles O42: the four codes presented, a sample joining its window, and a window completed and announced. -/
theorem conversionSamplesLocalInputs : Obligations.ConversionSamplesLocalInputs := by
  refine ⟨fun dt c0 c1 c2 c3 s run onTime => ?_, fun r e code n now => ⟨rfl, rfl, rfl, rfl, rfl, rfl, rfl⟩, fun s d code => ⟨presentSample_failing, ?_⟩⟩
  · have distinct : ((codes c0 c1 c2 c3).map Prod.fst).Nodup := by
      simp only [codes, List.map_cons, List.map_nil]
      decide
    have local4 : ∀ d : Fin 16, 4 ≤ d → d ∉ (codes c0 c1 c2 c3).map Prod.fst := by
      simp only [codes, List.map_cons, List.map_nil]
      decide
    obtain ⟨others, named⟩ := foldl_presentSample (codes c0 c1 c2 c3) (converting dt s) distinct
    have touched := foldl_presentSample_touches (codes c0 c1 c2 c3) (converting dt s)
    have exec := execConversion_due (c0 := c0) (c1 := c1) (c2 := c2) (c3 := c3) run onTime
    refine ⟨_, exec, ?_, ?_, rfl, fun g => ?_, ?_, fun d distant => ?_, fun d code member => ?_⟩
    · obtain ⟨t, e, v, g, same, reads, _⟩ := touched
      rw [same]
      exact reads.1
    · obtain ⟨t, e, v, g, same, _⟩ := touched
      rw [same]
      rfl
    · obtain ⟨t, e, v, gauges, same, _, _, moved⟩ := touched
      rw [same]
      exact target_alone moved g
    · obtain ⟨t, e, v, gauges, same, _, _, moved⟩ := touched
      rw [same]
      exact moved.2.1
    · exact others d (local4 d distant)
    · have record := named (d, code) member
      refine ⟨fun e read => ?_, fun read => ?_⟩
      · intro a
        exact record.trans (taken_some read _ _ _)
      · exact record.trans (taken_none read _ _ _)
  · intro e read a c done t
    refine ⟨fun short => presentSample_short read short, fun full => ?_⟩
    have presented : t = announceWindow done d e a.threshold c.threshold (averageOf a.sum a.held) := presentSample_full read full
    have silent : c.threshold = a.threshold ∨ e.channel = none →
        (if c.threshold = a.threshold then done else reportTo done e.channel (c.threshold == .active)) = done := by
      rintro (same | none)
      · exact if_pos same
      · rw [none]
        exact ite_self _
    have reports (ch : Fin 32) (moved : c.threshold ≠ a.threshold) (names : e.channel = some ch) :
        (if c.threshold = a.threshold then done else reportTo done e.channel (c.threshold == .active)) =
          reportLevel done ch (decide (c.threshold = .active)) := by
      rw [if_neg moved, names, beq_eq_decide]
      rfl
    rw [announceWindow_eq] at presented
    have told := windowReport_touches done e a.threshold c.threshold
    generalize (if c.threshold = a.threshold then done else reportTo done e.channel (c.threshold == .active)) = u at presented silent reports told
    obtain ⟨t', v, same, reads, _⟩ := told
    obtain ⟨t'', g, handed, reads', fan, timer, targets⟩ := GaugePasses.handReading_pass u (.descriptor d) (averageOf a.sum a.held)
    have stands : u.gauges = s.gauges := by rw [same]; rfl
    have read' : s.tables.Reads u.tables := by rw [same]; exact reads
    refine ⟨u, silent, reports, ?_, ?_, ?_, ?_, fun g => ?_⟩
    · rw [presented, handed]
      exact reads'.1
    · rw [presented, handed]
    · rw [presented, handed, ← stands]
      exact fan
    · rw [presented, handed, ← stands]
      exact timer
    · have target := targets g
      rw [GaugePasses.retargeted_congr read', stands] at target
      rw [presented, handed]
      exact target

end Sys2Proof.Machine.SamplePresentation
end

section
/-! PROOFS. The actions of SWITCH and SENDER entries (R44, R45), bit by bit and reading by reading, and what any routed frame leaves (R34, R37, R48). -/

namespace Sys2Proof.Machine.RouteActions

open RouteWalks SamplePresentation

/-! ## A SWITCH entry -/

/-- The bit a SWITCH frame carries for a channel, and whether it carries one (R44). -/
def switchBit (payload : List Byte) (i : Nat) : Bool := (payload.getD (i / 8) 0#8).getLsbD (i % 8)

/-- One contact bit of a SWITCH frame (R44). -/
def switchStep (base : Nat) (payload : List Byte) (s : State) (i : Nat) : State :=
  if h : base + i < 32 then
    if i / 8 < payload.length then reportLevel s ⟨base + i, h⟩ (switchBit payload i) else s
  else s

theorem routeSwitch_eq (s : State) (r : RouteEntry) (payload : List Byte) :
    routeSwitch s r payload = (List.range r.switchCount).foldl (switchStep r.base payload) s := rfl

/-- A contact bit gives its own channel its level (R44). -/
theorem switchStep_level (base : Nat) (payload : List Byte) (s : State) (i : Nat) (c : Fin 32) :
    ((switchStep base payload s i).events.channels[c]).level =
      if c.val = base + i ∧ i / 8 < payload.length then levelOf (switchBit payload i) else (s.events.channels[c]).level := by
  unfold switchStep
  by_cases h : base + i < 32
  · by_cases held : i / 8 < payload.length
    · rw [dif_pos h, if_pos held, reportLevel_level]
      simp only [held, and_true, Fin.ext_iff, eq_comm (a := base + i)]
    · rw [dif_pos h, if_neg held, if_neg fun both => held both.2]
  · have beyond : c.val ≠ base + i := fun same => h (same ▸ c.isLt)
    rw [dif_neg h, if_neg fun both => beyond both.1]

/-- The first contact bits of a frame give their channels their levels, and no others (R44). -/
theorem foldl_switchStep_level (base : Nat) (payload : List Byte) (s : State) (c : Fin 32) : ∀ n : Nat,
    (((List.range n).foldl (switchStep base payload) s).events.channels[c]).level =
      if base ≤ c.val ∧ c.val < base + n ∧ (c.val - base) / 8 < payload.length then levelOf (switchBit payload (c.val - base))
      else (s.events.channels[c]).level
  | 0 => (if_neg (by omega)).symm
  | n + 1 => by
    rw [List.range_succ, List.foldl_append, List.foldl_cons, List.foldl_nil, switchStep_level, foldl_switchStep_level base payload s c n]
    by_cases last : c.val = base + n
    · have place : c.val - base = n := by omega
      have later : ¬(base ≤ c.val ∧ c.val < base + n ∧ n / 8 < payload.length) := by omega
      have now : (base ≤ c.val ∧ c.val < base + (n + 1) ∧ n / 8 < payload.length) ↔ c.val = base + n ∧ n / 8 < payload.length := by omega
      simp only [place, if_neg later, now]
    · have earlier : (base ≤ c.val ∧ c.val < base + (n + 1) ∧ (c.val - base) / 8 < payload.length) ↔
          base ≤ c.val ∧ c.val < base + n ∧ (c.val - base) / 8 < payload.length := by omega
      simp only [if_neg fun both : c.val = base + n ∧ n / 8 < payload.length => last both.1, earlier]

/-! ## A SENDER entry -/

/-- A reading of a SENDER frame, at most 1023 (R45). -/
def senderReading (payload : List Byte) (j : Nat) : Nat := min 1023 (byteAt payload (2 * j) * 256 + byteAt payload (2 * j + 1))

/-- One reading of a SENDER frame (R45). -/
def senderStep (base : Nat) (payload : List Byte) (s : State) (j : Nat) : State :=
  if h : base + j < 16 then
    if 4 ≤ base + j ∧ 2 * j + 2 ≤ payload.length then presentSample s ⟨base + j, h⟩ (senderReading payload j) else s
  else s

theorem routeSender_eq (s : State) (r : RouteEntry) (payload : List Byte) :
    routeSender s r payload = (List.range r.senderCount).foldl (senderStep r.base payload) s := rfl

theorem senderStep_reads (base : Nat) (payload : List Byte) (s : State) (j : Nat) :
    s.tables.Reads (senderStep base payload s j).tables ∧ (senderStep base payload s j).now = s.now := by
  unfold senderStep
  split
  · split
    · exact ⟨presentSample_reads _ _ _, presentSample_now _ _ _⟩
    · exact ⟨.refl _, rfl⟩
  · exact ⟨.refl _, rfl⟩

/-- A reading reaches its own descriptor (R45). -/
theorem senderStep_descriptor (base : Nat) (payload : List Byte) (s : State) (j : Nat) (d : Fin 16) :
    (senderStep base payload s j).sampler.descriptors[d] =
      if d.val = base + j ∧ 4 ≤ d.val ∧ 2 * j + 2 ≤ payload.length then taken s.tables s.now d (senderReading payload j) s.sampler.descriptors[d]
      else s.sampler.descriptors[d] := by
  unfold senderStep
  by_cases h : base + j < 16
  · by_cases held : 4 ≤ base + j ∧ 2 * j + 2 ≤ payload.length
    · rw [dif_pos h, if_pos held, presentSample_descriptors, upd_get]
      by_cases same : (⟨base + j, h⟩ : Fin 16) = d
      · subst same
        rw [if_pos rfl, if_pos ⟨rfl, held⟩]
      · rw [if_neg same, if_neg fun all => same (Fin.ext all.1.symm)]
    · rw [dif_pos h, if_neg held, if_neg fun all : d.val = base + j ∧ 4 ≤ d.val ∧ 2 * j + 2 ≤ payload.length => held (all.1 ▸ all.2)]
  · have beyond : d.val ≠ base + j := fun same => h (same ▸ d.isLt)
    rw [dif_neg h, if_neg fun all => beyond all.1]

theorem foldl_senderStep_reads (base : Nat) (payload : List Byte) : ∀ (js : List Nat) (s : State),
    s.tables.Reads (js.foldl (senderStep base payload) s).tables ∧ (js.foldl (senderStep base payload) s).now = s.now
  | [], s => ⟨.refl _, rfl⟩
  | j :: js, s => by
    obtain ⟨reads, now⟩ := senderStep_reads base payload s j
    obtain ⟨reads', now'⟩ := foldl_senderStep_reads base payload js (senderStep base payload s j)
    exact ⟨reads.trans reads', now'.trans now⟩

/-- The first readings of a frame reach their descriptors, and no others (R45). -/
theorem foldl_senderStep_descriptor (base : Nat) (payload : List Byte) (s : State) (d : Fin 16) : ∀ n : Nat,
    ((List.range n).foldl (senderStep base payload) s).sampler.descriptors[d] =
      if 4 ≤ d.val ∧ base ≤ d.val ∧ d.val - base < n ∧ 2 * (d.val - base) + 2 ≤ payload.length then
        taken s.tables s.now d (senderReading payload (d.val - base)) s.sampler.descriptors[d]
      else s.sampler.descriptors[d]
  | 0 => (if_neg (by omega)).symm
  | n + 1 => by
    obtain ⟨reads, now⟩ := foldl_senderStep_reads base payload (List.range n) s
    rw [List.range_succ, List.foldl_append, List.foldl_cons, List.foldl_nil, senderStep_descriptor, taken_congr reads, now,
      foldl_senderStep_descriptor base payload s d n]
    by_cases last : d.val = base + n
    · have place : d.val - base = n := by omega
      have later : ¬(4 ≤ d.val ∧ base ≤ d.val ∧ n < n ∧ 2 * n + 2 ≤ payload.length) := by omega
      have all : (4 ≤ d.val ∧ base ≤ d.val ∧ n < n + 1 ∧ 2 * n + 2 ≤ payload.length) ↔ d.val = base + n ∧ 4 ≤ d.val ∧ 2 * n + 2 ≤ payload.length := by
        omega
      simp only [place, if_neg later, all]
    · have earlier : (4 ≤ d.val ∧ base ≤ d.val ∧ d.val - base < n + 1 ∧ 2 * (d.val - base) + 2 ≤ payload.length) ↔
          4 ≤ d.val ∧ base ≤ d.val ∧ d.val - base < n ∧ 2 * (d.val - base) + 2 ≤ payload.length := by omega
      simp only [if_neg fun all : d.val = base + n ∧ 4 ≤ d.val ∧ 2 * n + 2 ≤ payload.length => last all.1, earlier]

/-! ## The action performed -/

section Performed

variable {s : State} {p : PortId} {r : RouteEntry} {f : Frame}

/-- The copy an entry also asks for leaves events and sampler (R47, R48). -/
theorem performRoute_switch (action : r.action = .switch) : (performRoute s p r f).events = (routeSwitch s r f.payload).events := by
  simp only [performRoute, action]
  split
  · rw [forward, State.setPort_events]
  · rfl

theorem performRoute_sender (action : r.action = .sender) : (performRoute s p r f).sampler = (routeSender s r f.payload).sampler := by
  simp only [performRoute, action]
  split
  · rw [forward, State.setPort_sampler]
  · rfl

end Performed

/-- Settles O22: the frame's entry performed, bit by bit or reading by reading. -/
theorem switchBitsReachChannels : Obligations.SwitchBitsReachChannels := by
  refine ⟨fun dt p s f e i r serves read admits head entry same => ?_, fun s p r f also => ⟨fun action => ?_, fun action => ?_⟩⟩
  · have first := routeFrame_first (s := s.elapse dt) read admits head entry same
    have released : ∀ u : State, (u.releasePool p).events = u.events ∧ (u.releasePool p).sampler = u.sampler := fun u =>
      ⟨State.setPort_events _ _ _, State.setPort_sampler _ _ _⟩
    refine ⟨_, execRouteWalk_routed dt serves, fun audible action c => ?_, fun action d => ?_⟩
    · have heard : (hear (s.elapse dt) f.src e).events = s.events := by
        rw [hear_audible (s := s.elapse dt) e audible]
        rfl
      rw [(released _).1, first, performRoute_switch action, routeSwitch_eq, foldl_switchStep_level, heard]
      rfl
    · obtain ⟨t, v, touched, reads, _⟩ := hear_touches (s.elapse dt) f.src e
      rw [(released _).2, first, performRoute_sender action, routeSender_eq, foldl_senderStep_descriptor, touched, taken_congr reads]
      rfl
  · simp only [performRoute, action, also]
    rfl
  · simp only [performRoute, action, also]
    rfl

/-! ## What a walk leaves of its arrival port and of S0 to S3 -/

/-- The counters of the arrival port stand, and no reading has reached S0 to S3 (R45, R48). -/
structure ArrivalStands (p : PortId) (s u : State) : Prop where
  counters : (u.port p).counters = (s.port p).counters
  inputs : ∀ d : Fin 16, d < 4 → u.sampler.descriptors[d] = s.sampler.descriptors[d]

namespace ArrivalStands

variable {p : PortId} {s u v : State}

theorem refl (p : PortId) (s : State) : ArrivalStands p s s := ⟨rfl, fun _ _ => rfl⟩

theorem trans (h : ArrivalStands p s u) (k : ArrivalStands p u v) : ArrivalStands p s v :=
  ⟨k.counters.trans h.counters, fun d few => (k.inputs d few).trans (h.inputs d few)⟩

/-- A change that touches neither port's counters nor the sampler. -/
theorem of_blocks (front : u.front.counters = s.front.counters) (rear : u.rear.counters = s.rear.counters) (sampler : u.sampler = s.sampler) :
    ArrivalStands p s u := by
  refine ⟨?_, fun d _ => by rw [sampler]⟩
  cases p with
  | front => exact front
  | rear => exact rear

theorem of_events (h : TouchesEvents s u) : ArrivalStands p s u := by
  obtain ⟨t, v, touched, _⟩ := h
  rw [touched]
  exact of_blocks rfl rfl rfl

theorem of_lamps (h : TouchesLamps s u) : ArrivalStands p s u := by
  obtain ⟨t, a, b, l, touched, _⟩ := h
  rw [touched]
  exact of_blocks rfl rfl rfl

end ArrivalStands

/-- Readings reach S4 to S15 alone (R45). -/
theorem routeSender_stands (p : PortId) (s : State) (r : RouteEntry) (payload : List Byte) : ArrivalStands p s (routeSender s r payload) := by
  refine ⟨?_, fun d few => ?_⟩
  · obtain ⟨t, e, v, g, touched, _⟩ := routeSender_touches s r payload
    rw [touched]
    cases p <;> rfl
  · have low : ¬(4 ≤ d.val ∧ r.base ≤ d.val ∧ d.val - r.base < r.senderCount ∧ 2 * (d.val - r.base) + 2 ≤ payload.length) :=
      fun all => absurd (Fin.lt_def.mp few) (Nat.not_lt.mpr all.1)
    rw [routeSender_eq, foldl_senderStep_descriptor, if_neg low]

/-- A copy is offered at the other port (R47). -/
theorem forward_stands (p : PortId) (s : State) (r : RouteEntry) (f : Frame) : ArrivalStands p s (forward s p r f) := by
  refine ⟨?_, fun d _ => ?_⟩
  · rw [forward_eq, State.port_other_setPort]
  · rw [forward_eq, State.setPort_sampler]

theorem routeReport_stands (p : PortId) (s : State) (f : Frame) : ArrivalStands p s (routeReport s f) := by
  have read : ArrivalStands p s (s.withTables (matchPod f.src (List.finRange 12) s.tables).1) := .of_blocks rfl rfl rfl
  have counted (u : State) : ArrivalStands p u u.countReportError := .of_blocks rfl rfl rfl
  unfold routeReport
  simp only
  split
  · split
    · exact read.trans (.of_lamps (takeReport_touches _ _ _))
    · exact read.trans (counted _)
  · exact read.trans (counted _)

theorem performRoute_stands (p : PortId) (s : State) (r : RouteEntry) (f : Frame) : ArrivalStands p s (performRoute s p r f) := by
  have also {u : State} (h : ArrivalStands p s u) : ArrivalStands p s (if r.alsoForward then forward u p r f else u) := by
    split
    · exact h.trans (forward_stands p u r f)
    · exact h
  unfold performRoute
  simp only
  split
  · exact also (.of_events (routeSwitch_touches s r f.payload))
  · exact also (routeSender_stands p s r f.payload)
  · exact also (routeReport_stands p s f)
  · exact forward_stands p s r f
  · exact .refl p s

theorem walkRoute_stands (p : PortId) (s : State) (e : DirectoryEntry) (f : Frame) : ArrivalStands p s (walkRoute s p e f) := by
  have missed (u : State) : ArrivalStands p u u.countMiss := .of_blocks rfl rfl rfl
  cases head : e.head with
  | none =>
    rw [walkRoute_noHead head]
    exact missed s
  | some i =>
    have read : ArrivalStands p s (s.withTables (findRoute f.kind 8 i.val s.tables).1) := .of_blocks rfl rfl rfl
    rw [walkRoute_head head]
    unfold endWalk
    split
    · exact read.trans (performRoute_stands p _ _ f)
    · exact read.trans (missed _)
    · exact read

theorem routeFrame_stands (p : PortId) (s : State) (f : Frame) : ArrivalStands p s (routeFrame s p f) := by
  cases read : (s.tables.directory f.src).2 with
  | none =>
    rw [routeFrame_failing read]
    exact .of_blocks rfl rfl rfl
  | some e =>
    cases admits : e.home.admits p with
    | false =>
      rw [routeFrame_refused read admits]
      exact .of_blocks rfl rfl rfl
    | true =>
      have heard : ArrivalStands p s (s.updSource f.src fun _ => heardNow s e) := .of_blocks rfl rfl rfl
      rw [routeFrame_heard read admits]
      exact (heard.trans (.of_events (hear_touches s f.src e))).trans (walkRoute_stands p _ e f)

/-- The port with another queue and TX-DROP (R48). -/
def moved (q : Port) (a : List QueueEntry) (x : Counter) : Port := { q with queue := a, counters := { q.counters with txDrop := x } }

/-- A release does not look at the queue (R23, R48). -/
theorem release_moved (q : Port) (a : List QueueEntry) {x : Counter} (stands : x = q.counters.txDrop) :
    (moved q a x).release = { q.release with queue := (moved q a x).release.queue } := by
  subst stands
  obtain ⟨line, quietFrom, byteOnWire, reception, poolA, poolB, olderB, queue, sentBytes, refillOwed, counters⟩ := q
  cases poolA <;> cases poolB <;> rfl

/-- Settles O20: what the walk's blocks can do, and the arrival port's release. -/
theorem routeWalkReleasesItsPool : Obligations.RouteWalkReleasesItsPool := by
  intro dt p s f serves
  have stands := routeFrame_stands p (s.elapse dt) f
  obtain ⟨t, a, x, b, y, r, e, l, v, g, walked, reads, _, ⟨reported, raw, debounced, timer⟩, targets, fan, _⟩ := routeFrame_route (s.elapse dt) p f
  rw [walked] at stands
  refine ⟨_, execRouteWalk_routed dt serves, ?_⟩
  rw [walked]
  have gauges := fun k => target_alone ⟨targets, fan, by assumption⟩ k
  cases p with
  | front =>
    have drops : x = s.front.counters.txDrop := congrArg PortCounters.txDrop stands.counters
    exact ⟨reads.1, rfl, release_moved s.front a drops, rfl, reported, raw, debounced, timer, gauges, fan, stands.inputs⟩
  | rear =>
    have drops : y = s.rear.counters.txDrop := congrArg PortCounters.txDrop stands.counters
    exact ⟨reads.1, rfl, release_moved s.rear b drops, rfl, reported, raw, debounced, timer, gauges, fan, stands.inputs⟩

end Sys2Proof.Machine.RouteActions
end

section
/-! PROOFS. A REPORT entry (R46, R104, R105): the pod its source names, the loads judged one after another, and the resolution of those that tripped. -/

namespace Sys2Proof.Machine.PodReports

open RouteWalks

/-! ## The pod a report names -/

/-- A pod record's address is a report's source (R46). -/
def named (src : LoomAddr) (t : TableStore) (P : Fin 12) : Bool := (t.pod P).2.any fun e => decide (e.address = src ∧ e.address ≠ 0)

theorem named_iff {src : LoomAddr} {t : TableStore} {P : Fin 12} :
    named src t P = true ↔ ∃ e, (t.pod P).2 = some e ∧ e.address = src ∧ e.address ≠ 0 := by
  simp only [named, Option.any_eq_true, decide_eq_true_eq]

theorem named_congr {src : LoomAddr} {t u : TableStore} (reads : t.Reads u) : named src u = named src t :=
  funext fun P => by rw [named, named, reads.pod]

/-- The pod that matches is the first the source names, and the reads go no further (R46, R12). -/
theorem matchPod_find (src : LoomAddr) : ∀ (ps : List (Fin 12)) (t : TableStore), (matchPod src ps t).2 = ps.find? (named src t)
  | [], _ => rfl
  | P :: ps, t => by
    have rest := matchPod_find src ps (t.pod P).1
    rw [named_congr (t.pod_reads P)] at rest
    cases read : (t.pod P).2 with
    | none =>
      have other : ¬named src t P = true := fun h => by
        obtain ⟨e, read', _⟩ := named_iff.mp h
        exact absurd (read.symm.trans read') nofun
      rw [List.find?_cons_of_neg other, ← rest]
      simp only [matchPod, read]
    | some e =>
      by_cases same : e.address = src ∧ e.address ≠ 0
      · rw [List.find?_cons_of_pos (named_iff.mpr ⟨e, read, same⟩)]
        simp only [matchPod, read, if_pos same]
      · have other : ¬named src t P = true := fun h => by
          obtain ⟨e', read', same'⟩ := named_iff.mp h
          obtain rfl := Option.some.inj (read.symm.trans read')
          exact same same'
        rw [List.find?_cons_of_neg other, ← rest]
        simp only [matchPod, read, if_neg same]

/-- The first pod the source names (R46). -/
theorem matchPod_first {src : LoomAddr} {t : TableStore} {P : Fin 12} (names : named src t P = true) (before : ∀ Q : Fin 12, Q < P → named src t Q = false) :
    (matchPod src (List.finRange 12) t).2 = some P := by
  rw [matchPod_find, List.find?_eq_some_iff_getElem]
  refine ⟨names, P.val, by simp, by simp, fun j below => ?_⟩
  rw [List.getElem_finRange, Bool.not_eq_true', before _ below]

/-- A source that no pod names matches none (R46). -/
theorem matchPod_none {src : LoomAddr} {t : TableStore} (none : ∀ P, named src t P = false) : (matchPod src (List.finRange 12) t).2 = Option.none := by
  rw [matchPod_find, List.find?_eq_none]
  exact fun P _ => Bool.eq_false_iff.mp (none P)

/-! ## The loads judged -/

/-- The loads judged, and those whose trip state has changed, do not depend on the marks of the reads before (R105). -/
theorem tripLoad_congr {t u : TableStore} (reads : t.Reads u) (now : Time) (r : LoadRecord) : (tripLoad u now r).2 = (tripLoad t now r).2 := by
  rw [LampReports.tripLoad_record, LampReports.tripLoad_record, reads.peekParam, reads.peekParam]

theorem proveLoad_congr {t u : TableStore} (reads : t.Reads u) (now : Time) (e : LoadEntry) (current : Nat) (r : LoadRecord) :
    (proveLoad u now e current r).2 = (proveLoad t now e current r).2 := by
  unfold proveLoad
  split
  · rfl
  · simp only [TableStore.param_value, reads.peekParam]
    split
    · split <;> rfl
    · rfl

theorem judgeLoad_congr {t u : TableStore} (reads : t.Reads u) (now : Time) (P : Fin 12) (payload : List Byte)
    (x : Vector LoadRecord 32 × List (Fin 32)) (l : Fin 32) :
    (judgeLoad now P payload (u, x) l).2 = (judgeLoad now P payload (t, x) l).2 := by
  have entry := reads.load l
  cases read : (t.load l).2 with
  | none =>
    rw [read] at entry
    simp only [judgeLoad, read, entry]
    split
    · rfl
    · split <;> rfl
  | some e =>
    rw [read] at entry
    simp only [judgeLoad, read, entry, LampReports.load_some read, LampReports.load_some entry, tripLoad_congr reads, proveLoad_congr reads]
    split
    · rfl
    · split
      · split <;> rfl
      · rfl

/-- The loads are judged alike from any store that reads alone have left (R105). -/
theorem foldl_judgeLoad_congr (now : Time) (P : Fin 12) (payload : List Byte) {base : TableStore} :
    ∀ (ls : List (Fin 32)) {t u : TableStore} (x : Vector LoadRecord 32 × List (Fin 32)), base.Reads t → base.Reads u →
      (ls.foldl (judgeLoad now P payload) (u, x)).2 = (ls.foldl (judgeLoad now P payload) (t, x)).2
  | [], _, _, _, _, _ => rfl
  | l :: ls, t, u, x, first, second => by
    have same : (judgeLoad now P payload (u, x) l).2 = (judgeLoad now P payload (t, x) l).2 :=
      (judgeLoad_congr second now P payload x l).trans (judgeLoad_congr first now P payload x l).symm
    have rest := foldl_judgeLoad_congr now P payload ls (judgeLoad now P payload (t, x) l).2
      (first.trans (judgeLoad_reads now P payload (t, x) l)) (second.trans (judgeLoad_reads now P payload (u, x) l))
    rw [List.foldl_cons, List.foldl_cons, ← rest, ← same]

theorem foldl_judgeLoad_reads (now : Time) (P : Fin 12) (payload : List Byte) :
    ∀ (ls : List (Fin 32)) (p : TableStore × Vector LoadRecord 32 × List (Fin 32)), p.1.Reads (ls.foldl (judgeLoad now P payload) p).1
  | [], p => .refl p.1
  | l :: ls, p => (judgeLoad_reads now P payload p l).trans (foldl_judgeLoad_reads now P payload ls (judgeLoad now P payload p l))

/-- A load judged is collected at most once (R105). -/
theorem judgeLoad_collects (now : Time) (P : Fin 12) (payload : List Byte) (p : TableStore × Vector LoadRecord 32 × List (Fin 32)) (l : Fin 32) :
    ∃ more : List (Fin 32), more.Sublist [l] ∧ (judgeLoad now P payload p l).2.2 = p.2.2 ++ more := by
  have none : ∃ more : List (Fin 32), more.Sublist [l] ∧ p.2.2 = p.2.2 ++ more := ⟨[], List.nil_sublist _, (List.append_nil _).symm⟩
  unfold judgeLoad
  simp only
  split
  · exact none
  · split
    · split
      · exact none
      · split
        · exact ⟨[l], List.Sublist.refl _, rfl⟩
        · exact none
    · exact none

theorem foldl_judgeLoad_collects (now : Time) (P : Fin 12) (payload : List Byte) :
    ∀ (ls : List (Fin 32)) (p : TableStore × Vector LoadRecord 32 × List (Fin 32)),
      ∃ more : List (Fin 32), more.Sublist ls ∧ (ls.foldl (judgeLoad now P payload) p).2.2 = p.2.2 ++ more
  | [], p => ⟨[], List.nil_sublist _, (List.append_nil _).symm⟩
  | l :: ls, p => by
    obtain ⟨one, first, is⟩ := judgeLoad_collects now P payload p l
    obtain ⟨more, rest, are⟩ := foldl_judgeLoad_collects now P payload ls (judgeLoad now P payload p l)
    refine ⟨one ++ more, first.append rest, ?_⟩
    rw [List.foldl_cons, are, is, List.append_assoc]

/-- The loads a report judges, and those that trip, in order and each once (R105). -/
def judged (s : State) (P : Fin 12) (payload : List Byte) : Vector LoadRecord 32 × List (Fin 32) :=
  ((List.finRange 32).foldl (judgeLoad s.now P payload) (s.tables, s.lamps.loads, [])).2

theorem judged_nodup (s : State) (P : Fin 12) (payload : List Byte) : (judged s P payload).2.Nodup := by
  obtain ⟨more, sub, are⟩ := foldl_judgeLoad_collects s.now P payload (List.finRange 32) (s.tables, s.lamps.loads, [])
  rw [judged, are, List.nil_append]
  exact sub.nodup (List.nodup_finRange 32)

/-! ## A report taken -/

/-- The pod of a report as it stands when the loads are judged: LIVE, its report timer restarted (R105). -/
def reported (s : State) (P : Fin 12) : State := startReport (s.updPod P fun r => { r with state := .live }) P

theorem reported_fields (s : State) (P : Fin 12) :
    ∃ v, reported s P = { s with tables := (s.tables.param .refreshPeriod).1, lamps := { s.lamps with pods := v } } ∧
      (v[P]).state = .live ∧ (v[P]).report = some (s.now + 3 * s.tables.peekParam .refreshPeriod * Config.ms500) := by
  refine ⟨_, rfl, ?_, ?_⟩
  · simp only [State.withTables_lamps, State.updPod_lamps, upd_get, if_true]
  · simp only [upd_get, if_true, State.updPod_now, State.updPod_tables, TableStore.param_value]

/-- The judgement of the loads as a report makes it, from the store its own reads have left (R105). -/
def judging (s : State) (P : Fin 12) (payload : List Byte) : TableStore × Vector LoadRecord 32 × List (Fin 32) :=
  (List.finRange 32).foldl (judgeLoad (reported s P).now P payload) ((reported s P).tables, (reported s P).lamps.loads, [])

/-- The state in which the loads have been judged, and those that tripped are still to resolve (R105). -/
def judgedState (s : State) (P : Fin 12) (payload : List Byte) : State :=
  { reported s P with
    tables := (judging s P payload).1
    lamps := { (reported s P).lamps with loads := (judging s P payload).2.1 } }

/-- A report judges the loads as they are judged from the store before it (R105). -/
theorem judging_eq (s : State) (P : Fin 12) (payload : List Byte) :
    (judging s P payload).2 = judged s P payload ∧ s.tables.Reads (judging s P payload).1 := by
  obtain ⟨v, fields, _⟩ := reported_fields s P
  have read := s.tables.param_reads .refreshPeriod
  simp only [judging, judged, fields]
  exact ⟨foldl_judgeLoad_congr s.now P payload (List.finRange 32) (s.lamps.loads, []) (.refl s.tables) read,
    read.trans (foldl_judgeLoad_reads s.now P payload (List.finRange 32) ((s.tables.param .refreshPeriod).1, s.lamps.loads, []))⟩

theorem judgedState_fields (s : State) (P : Fin 12) (payload : List Byte) :
    ∃ t v, judgedState s P payload = { s with tables := t, lamps := { s.lamps with pods := v, loads := (judged s P payload).1 } } ∧ s.tables.Reads t ∧
      (v[P]).state = .live ∧ (v[P]).report = some (s.now + 3 * s.tables.peekParam .refreshPeriod * Config.ms500) := by
  obtain ⟨v, fields, live, restarted⟩ := reported_fields s P
  obtain ⟨same, reads⟩ := judging_eq s P payload
  refine ⟨(judging s P payload).1, v, ?_, reads, live, restarted⟩
  rw [judgedState, same, fields]

/-- A report resolves the loads that tripped, and no other (R105). -/
theorem takeReport_eq (s : State) (P : Fin 12) (payload : List Byte) :
    takeReport s P payload =
      if (judged s P payload).2.isEmpty then judgedState s P payload else resolveLoads (judgedState s P payload) false (judged s P payload).2 := by
  rw [← (judging_eq s P payload).1]
  unfold takeReport judgedState judging reported
  simp only

/-- The loads a report leaves: judged, and resolved where they tripped (R105). -/
theorem takeReport_loads (s : State) (P : Fin 12) (payload : List Byte) (l : Fin 32) :
    (takeReport s P payload).lamps.loads[l] =
      if l ∈ (judged s P payload).2 then ActionChains.resolved s.tables s.lampEnv false l (judged s P payload).1[l] else (judged s P payload).1[l] := by
  obtain ⟨t, v, fields, reads, _⟩ := judgedState_fields s P payload
  have each := judged_nodup s P payload
  have taken := takeReport_eq s P payload
  generalize judged s P payload = j at fields each taken ⊢
  generalize judgedState s P payload = u at fields taken
  have env : u.lampEnv = s.lampEnv := by rw [fields]; rfl
  have loads : u.lamps.loads = j.1 := by rw [fields]
  have entry : ActionChains.resolved u.tables = ActionChains.resolved s.tables := by
    rw [fields]
    funext env fade l r
    rw [ActionChains.resolved, ActionChains.resolved, reads.load]
  by_cases none : j.2.isEmpty = true
  · have absent : l ∉ j.2 := by
      rw [List.isEmpty_iff.mp none]
      exact List.not_mem_nil
    rw [taken, if_pos none, loads, if_neg absent]
  · rw [taken, if_neg none, ActionChains.resolveLoads_get _ _ each, env, loads, entry]

/-- The pod of a report is LIVE, its report timer restarted for three refresh periods (R104, R105). -/
theorem takeReport_pod (s : State) (P : Fin 12) (payload : List Byte) :
    ((takeReport s P payload).lamps.pods[P]).state = .live ∧
      ((takeReport s P payload).lamps.pods[P]).report = some (s.now + 3 * s.tables.peekParam .refreshPeriod * Config.ms500) := by
  obtain ⟨t, v, fields, _, live, restarted⟩ := judgedState_fields s P payload
  have pod : (judgedState s P payload).lamps.pods[P] = v[P] := by rw [fields]
  rw [takeReport_eq]
  split
  · rw [pod]
    exact ⟨live, restarted⟩
  · rw [LampPods.resolveLoads_pods, pod]
    exact ⟨live, restarted⟩

/-- A report's copy, and the release of the pool, leave lamps and counters (R37, R47, R48). -/
theorem performRoute_report {s : State} {p : PortId} {r : RouteEntry} {f : Frame} (action : r.action = .report) :
    ((performRoute s p r f).releasePool p).lamps = (routeReport s f).lamps ∧ ((performRoute s p r f).releasePool p).routes = (routeReport s f).routes := by
  have pool (u : State) : (u.releasePool p).lamps = u.lamps ∧ (u.releasePool p).routes = u.routes :=
    ⟨State.setPort_lamps _ _ _, State.setPort_routes _ _ _⟩
  rw [(pool _).1, (pool _).2]
  simp only [performRoute, action]
  split
  · rw [forward_eq, State.setPort_lamps, State.setPort_routes]
    exact ⟨rfl, rfl⟩
  · exact ⟨rfl, rfl⟩

/-- A report of 9 bytes from a source that a pod names is taken (R46). -/
theorem routeReport_taken {s : State} {f : Frame} {P : Fin 12} (names : (matchPod f.src (List.finRange 12) s.tables).2 = some P)
    (length : f.payload.length = 9) :
    routeReport s f = takeReport (s.withTables (matchPod f.src (List.finRange 12) s.tables).1) P f.payload := by
  simp only [routeReport, names, if_pos length]

/-- Any other counts REPORT-ERROR (R46). -/
theorem routeReport_error {s : State} {f : Frame} (bad : f.payload.length ≠ 9 ∨ (matchPod f.src (List.finRange 12) s.tables).2 = none) :
    routeReport s f = (s.withTables (matchPod f.src (List.finRange 12) s.tables).1).countReportError := by
  unfold routeReport
  simp only
  split
  · next P names =>
    have length := bad.resolve_right (by rw [names]; nofun)
    exact if_neg length
  · rfl

/-- Settles O24: the pod the source names, or the count of an error. -/
theorem reportReachesItsPod : Obligations.ReportReachesItsPod := by
  intro dt p s f e i r serves read admits head entry same action
  have first := routeFrame_first (s := s.elapse dt) read admits head entry same
  have heard := hear_reads (s.elapse dt) f.src e
  have touched := hear_touches (s.elapse dt) f.src e
  generalize hear (s.elapse dt) f.src e = u at first heard touched
  have lamps : u.lamps = s.lamps := by
    obtain ⟨t, v, same, _⟩ := touched
    rw [same]
    rfl
  have now : u.now = s.now + dt := by
    obtain ⟨t, v, same, _⟩ := touched
    rw [same]
    rfl
  have env : u.lampEnv = (s.elapse dt).lampEnv := by
    obtain ⟨t, v, same, _⟩ := touched
    rw [same]
    rfl
  have errors : u.routes.reportError = s.routes.reportError := by
    obtain ⟨t, v, same, _⟩ := touched
    rw [same]
    rfl
  have released := performRoute_report (s := u) (p := p) (f := f) action
  refine ⟨_, execRouteWalk_routed dt serves, fun P E pod address some before length => ?_, fun bad => ?_⟩
  · have names : (matchPod f.src (List.finRange 12) u.tables).2 = Option.some P := by
      refine matchPod_first ?_ fun Q below => ?_
      · rw [named_congr heard]
        exact named_iff.mpr ⟨E, pod, address, some⟩
      · rw [named_congr heard]
        refine Bool.eq_false_iff.mpr fun h => ?_
        obtain ⟨E', read', same', _⟩ := named_iff.mp h
        exact before Q below E' read' same'
    have taken := routeReport_taken names length
    have reads : s.tables.Reads (u.withTables (matchPod f.src (List.finRange 12) u.tables).1).tables := heard.trans (matchPod_reads f.src (List.finRange 12) u.tables)
    generalize matchPod f.src (List.finRange 12) u.tables = m at taken reads
    have judgement : judged (u.withTables m.1) P f.payload =
        ((List.finRange 32).foldl (judgeLoad (s.now + dt) P f.payload) (s.tables, s.lamps.loads, [])).2 := by
      rw [judged, State.withTables_now, State.withTables_lamps, now, lamps]
      exact foldl_judgeLoad_congr (s.now + dt) P f.payload (List.finRange 32) (s.lamps.loads, []) (.refl s.tables) reads
    obtain ⟨live, restarted⟩ := takeReport_pod (u.withTables m.1) P f.payload
    have loads := takeReport_loads (u.withTables m.1) P f.payload
    have kept : (takeReport (u.withTables m.1) P f.payload).routes = u.routes := by
      obtain ⟨t, a, b, l, same, _⟩ := takeReport_touches (u.withTables m.1) P f.payload
      rw [same]
      rfl
    have resolved : ActionChains.resolved (u.withTables m.1).tables (u.withTables m.1).lampEnv = ActionChains.resolved s.tables (s.elapse dt).lampEnv := by
      rw [← env]
      funext fade l r
      rw [ActionChains.resolved, ActionChains.resolved, reads.load]
      rfl
    rw [judgement, resolved] at loads
    rw [State.withTables_now, now, reads.peekParam] at restarted
    rw [first, released.1, released.2, taken, kept, errors]
    exact ⟨live, restarted, rfl, loads⟩
  · have missed : f.payload.length ≠ 9 ∨ (matchPod f.src (List.finRange 12) u.tables).2 = none := by
      refine bad.imp_right fun unnamed => matchPod_none fun P => ?_
      rw [named_congr heard]
      refine Bool.eq_false_iff.mpr fun h => ?_
      obtain ⟨E, read', same', some⟩ := named_iff.mp h
      exact some (unnamed P E read' same')
    rw [first, released.1, released.2, routeReport_error missed, ← errors, ← lamps]
    exact ⟨rfl, rfl⟩

end Sys2Proof.Machine.PodReports
end

section
/-! PROOFS. The load block's timers (R94, R98, R100 to R104, R109): the fade and cool-off that resolve, what a resolution changes, the merge of a pod, and
the refresh and report timers of the pods. -/

namespace Sys2Proof.Machine.LampTimers

open LampPods

/-! ## The merged levels of a pod -/

theorem le_higher (a b : Level) : a ≤ higher a b ∧ b ≤ higher a b ∧ (higher a b = a ∨ higher a b = b) := by
  unfold higher
  split
  · next le => exact ⟨le, Fin.le_refl b, .inr rfl⟩
  · next gt => exact ⟨Fin.le_refl a, Fin.le_of_lt (Fin.not_le.mp gt), .inl rfl⟩

/-- One load merged into the levels of a pod (R101). -/
def mergeStep (loads : Vector LoadRecord 32) (P : Fin 12) (v : Vector Level 8) (l : Fin 32) : Vector Level 8 :=
  match (loads[l]).binding with
  | some (Q, k) => if Q = P then upd v k fun m => higher m (loads[l]).effective else v
  | none => v

theorem mergedLevels_eq (loads : Vector LoadRecord 32) (P : Fin 12) :
    mergedLevels loads P = (List.finRange 32).foldl (mergeStep loads P) (Vector.replicate 8 0) := rfl

/-- A load is merged into the output it is bound to (R101). -/
theorem mergeStep_get (loads : Vector LoadRecord 32) (P : Fin 12) (v : Vector Level 8) (l : Fin 32) (k : Fin 8) :
    (mergeStep loads P v l)[k] = if (loads[l]).binding = some (P, k) then higher v[k] (loads[l]).effective else v[k] := by
  unfold mergeStep
  cases bound : (loads[l]).binding with
  | none => exact (if_neg nofun).symm
  | some b =>
    obtain ⟨Q, j⟩ := b
    simp only [Option.some.injEq, Prod.mk.injEq]
    by_cases pod : Q = P
    · simp only [pod, if_true, true_and, upd_get]
    · simp only [pod, if_false, false_and]

/-- A merge over some loads is at least what it began with and every load bound to the output, and no more (R101). -/
theorem foldl_mergeStep (loads : Vector LoadRecord 32) (P : Fin 12) (k : Fin 8) :
    ∀ (ls : List (Fin 32)) (v : Vector Level 8), v[k] ≤ (ls.foldl (mergeStep loads P) v)[k] ∧
      (∀ l ∈ ls, (loads[l]).binding = some (P, k) → (loads[l]).effective ≤ (ls.foldl (mergeStep loads P) v)[k]) ∧
      ((ls.foldl (mergeStep loads P) v)[k] = v[k] ∨ ∃ l : Fin 32, (loads[l]).binding = some (P, k) ∧ (ls.foldl (mergeStep loads P) v)[k] = (loads[l]).effective)
  | [], v => ⟨Fin.le_refl _, fun _ none => absurd none List.not_mem_nil, .inl rfl⟩
  | l :: ls, v => by
    obtain ⟨least, each, is⟩ := foldl_mergeStep loads P k ls (mergeStep loads P v l)
    rw [List.foldl_cons]
    by_cases bound : (loads[l]).binding = some (P, k)
    · have first : (mergeStep loads P v l)[k] = higher v[k] (loads[l]).effective := (mergeStep_get loads P v l k).trans (if_pos bound)
      obtain ⟨left, right, either⟩ := le_higher v[k] (loads[l]).effective
      rw [← first] at left right either
      refine ⟨Fin.le_trans left least, fun j member bound' => ?_, ?_⟩
      · rcases List.mem_cons.mp member with rfl | later
        · exact Fin.le_trans right least
        · exact each j later bound'
      · rcases is with same | other
        · rcases either with before | level
          · exact .inl (same.trans before)
          · exact .inr ⟨l, bound, same.trans level⟩
        · exact .inr other
    · have first : (mergeStep loads P v l)[k] = v[k] := (mergeStep_get loads P v l k).trans (if_neg bound)
      rw [← first]
      refine ⟨least, fun j member bound' => ?_, is⟩
      rcases List.mem_cons.mp member with rfl | later
      · exact absurd bound' bound
      · exact each j later bound'

/-- A pod's merged level for an output is the highest effective level bound to it, or 0 (R101). -/
theorem mergedLevels_highest (loads : Vector LoadRecord 32) (P : Fin 12) (k : Fin 8) :
    (∀ l : Fin 32, (loads[l]).binding = some (P, k) → (loads[l]).effective ≤ (mergedLevels loads P)[k]) ∧
      ((mergedLevels loads P)[k] = 0 ∨ ∃ l : Fin 32, (loads[l]).binding = some (P, k) ∧ (mergedLevels loads P)[k] = (loads[l]).effective) := by
  obtain ⟨_, each, is⟩ := foldl_mergeStep loads P k (List.finRange 32) (Vector.replicate 8 0)
  have zero : (Vector.replicate 8 (0 : Level))[k] = 0 := Vector.getElem_replicate _
  rw [zero] at is
  rw [mergedLevels_eq]
  exact ⟨fun l => each l (List.mem_finRange l), is⟩

/-! ## The merge and the LAMPCMD of a pod -/

section Pod

variable {s : State} {P : Fin 12} {e : PodEntry}

/-- A POD entry that reads good leaves the store as it was (R10). -/
theorem withTables_pod (read : (s.tables.pod P).2 = some e) : s.withTables (s.tables.pod P).1 = s := by
  obtain ⟨_, words, _⟩ := Option.map_eq_some_iff.mp read
  have same : (s.tables.pod P).1 = s.tables := TableStore.readBlock_some words
  rw [same]
  rfl

/-- A LAMPCMD whose POD entry reads good is offered to its port (R102). -/
theorem produceLampcmd_offers (read : (s.tables.pod P).2 = some e) (address : e.address ≠ 0) : produceLampcmd s P = offerLampcmd s P e := by
  simp only [produceLampcmd, read, withTables_pod read, if_neg address]

/-- With an address of 0 no frame is built, and the dirty mark goes (R102). -/
theorem produceLampcmd_unaddressed (read : (s.tables.pod P).2 = some e) (address : e.address = 0) :
    produceLampcmd s P = s.updPod P fun x => { x with dirty := false } := by
  simp only [produceLampcmd, read, withTables_pod read, if_pos address]

/-- With a failing entry as well (R102, R12). -/
theorem produceLampcmd_failing (read : (s.tables.pod P).2 = none) :
    produceLampcmd s P = (s.withTables (s.tables.pod P).1).updPod P fun x => { x with dirty := false } := by
  simp only [produceLampcmd, read]

/-- A pod whose levels do not change is left (R101). -/
theorem mergePod_same (same : mergedLevels s.lamps.loads P = (s.lamps.pods[P]).levels) : mergePod s P = s := if_pos same

/-- One whose levels change takes them, and one LAMPCMD is produced (R101). -/
theorem mergePod_changed (changed : mergedLevels s.lamps.loads P ≠ (s.lamps.pods[P]).levels) :
    mergePod s P = produceLampcmd (s.updPod P fun x => { x with levels := mergedLevels s.lamps.loads P }) P := if_neg changed

end Pod

/-! ## A resolution of loads -/

/-- A resolution leaves each load it does not name (R94). -/
theorem foldl_resolveLoad_other (v : LampEnv) (fade : Bool) (l : Fin 32) : ∀ (ls : List (Fin 32)) (p : TableStore × Vector LoadRecord 32), l ∉ ls →
    (ls.foldl (resolveLoad v fade) p).2[l] = p.2[l]
  | [], _, _ => rfl
  | k :: ls, p, absent => by
    obtain ⟨head, tail⟩ := List.ne_and_not_mem_of_not_mem_cons absent
    rw [List.foldl_cons, foldl_resolveLoad_other v fade l ls _ tail, resolveLoad_get, if_neg head.symm]

theorem resolveLoads_other (s : State) (fade : Bool) {ls : List (Fin 32)} {l : Fin 32} (absent : l ∉ ls) :
    (resolveLoads s fade ls).lamps.loads[l] = s.lamps.loads[l] := by
  rw [(resolveLoads_commanded s fade ls).loads]
  exact foldl_resolveLoad_other s.lampEnv fade l ls (s.tables, s.lamps.loads) absent

/-- Loads resolved, and their pods still to merge: reads and load records alone (R94). -/
theorem loadsResolved_fields (s : State) (fade : Bool) (ls : List (Fin 32)) :
    s.tables.ReadsOnly (loadsResolved s fade ls).tables ∧
      loadsResolved s fade ls =
        { s with tables := (loadsResolved s fade ls).tables, lamps := { s.lamps with loads := (resolveLoads s fade ls).lamps.loads } } := by
  refine ⟨(foldl_rel (R := fun p q : TableStore × Vector LoadRecord 32 => p.1.Reads q.1) (fun p => .refl p.1) (fun h k => h.trans k)
    (resolveLoad_reads s.lampEnv fade) ls (s.tables, s.lamps.loads)).1, ?_⟩
  rw [(resolveLoads_commanded s fade ls).loads]
  rfl

/-! ## The fade and the cool-off -/

/-- The loads a fade expiry resolves: their ramp flag on, and their current level short of the request (R98). -/
def fadingLoads (s : State) : List (Fin 32) :=
  (List.finRange 32).filter fun l => (s.lamps.loads[l]).ramp && decide ((s.lamps.loads[l]).current ≠ (s.lamps.loads[l]).requested)

theorem mem_fadingLoads {s : State} {l : Fin 32} :
    l ∈ fadingLoads s ↔ (s.lamps.loads[l]).ramp = true ∧ (s.lamps.loads[l]).current ≠ (s.lamps.loads[l]).requested := by
  simp only [fadingLoads, List.mem_filter, List.mem_finRange, true_and, Bool.and_eq_true, decide_eq_true_eq]

theorem fadingLoads_nodup (s : State) : (fadingLoads s).Nodup := (List.nodup_finRange 32).filter _

/-- The state in which a fade expiry resolves, its timer gone on (R98). -/
def fadeTimed (dt : Time) (s : State) : State := { s with now := s.now + dt, lamps := { s.lamps with fadeTimer := s.lamps.fadeTimer + 100000 } }

theorem execLoadFadeExpiry_due {dt : Time} {s : State} (run : s.power = .running) (expired : s.lamps.fadeTimer ≤ s.now + dt) :
    execLoadFadeExpiry dt s = .next (resolveLoads (fadeTimed dt s) true (fadingLoads s)) := by
  have late : (s.elapse dt).lamps.fadeTimer ≤ (s.elapse dt).now := expired
  simp only [execLoadFadeExpiry, live_running run, if_pos late]
  rfl

/-- A load whose cool-off has ended: NORMAL where it was COOLING, its retry count kept (R109). -/
def cooled (r : LoadRecord) : LoadRecord := { r with coolOff := none, trip := if r.trip = .cooling then .normal else r.trip }

/-- The state in which the end of a cool-off is resolved (R109). -/
def coolingEnded (dt : Time) (l : Fin 32) (s : State) : State := (s.elapse dt).updLoad l fun _ => cooled s.lamps.loads[l]

theorem execCoolOffExpiry_due {dt : Time} {l : Fin 32} {s : State} (run : s.power = .running) (expired : Due (s.lamps.loads[l]).coolOff (s.now + dt)) :
    execCoolOffExpiry dt l s = .next (resolveLoads (coolingEnded dt l s) false [l]) := by
  have late : due ((s.elapse dt).lamps.loads[l]).coolOff (s.elapse dt).now = true := EventChannels.due_iff.mpr expired
  simp only [execCoolOffExpiry, live_running run, if_pos late]
  rfl

/-- Settles O34: the two timers that resolve, a resolution of any loads, and the merge of one pod. -/
theorem fadeAndCoolOffResolve : Obligations.FadeAndCoolOffResolve := by
  refine ⟨fun dt s run expired => ?_, fun dt l s run expired => ?_, fun s fade ls => ?_, fun s P => ?_⟩
  · obtain ⟨t, a, b, lamps, touched, reads, fade⟩ := resolveLoads_touches (fadeTimed dt s) true (fadingLoads s)
    have loads := ActionChains.resolveLoads_get (fadeTimed dt s) true (fadingLoads_nodup s)
    refine ⟨resolveLoads (fadeTimed dt s) true (fadingLoads s), execLoadFadeExpiry_due run expired, ?_, ?_, rfl, ?_, fun l => ?_⟩
    · rw [touched]
      exact reads.1
    · rw [touched]
      rfl
    · rw [touched]
      exact fade
    · rw [loads l]
      simp only [mem_fadingLoads]
      rfl
  · intro r
    obtain ⟨t, a, b, lamps, touched, reads, _⟩ := resolveLoads_touches (coolingEnded dt l s) false [l]
    have loads := ActionChains.resolveLoads_get (coolingEnded dt l s) false (List.nodup_singleton l)
    have own : (coolingEnded dt l s).lamps.loads[l] = r := upd_self _ _ _
    refine ⟨resolveLoads (coolingEnded dt l s) false [l], execCoolOffExpiry_due run expired, ?_, ?_, rfl, fun k other => ?_, ?_⟩
    · rw [touched]
      exact reads.1
    · rw [touched]
      rfl
    · rw [loads k, if_neg fun member => other (List.mem_singleton.mp member)]
      exact upd_other _ _ other.symm
    · rw [loads l, if_pos (List.mem_singleton.mpr rfl), own]
      rfl
  · obtain ⟨t, a, b, lamps, touched, reads, timer⟩ := resolveLoads_touches s fade ls
    obtain ⟨read, fields⟩ := loadsResolved_fields s fade ls
    refine ⟨⟨loadsResolved s fade ls, read, fields, resolveLoads_eq s fade ls⟩, fun l absent => resolveLoads_other s fade absent, ?_, fun P => ?_, ?_, ?_⟩
    · rw [touched]
      exact timer
    · rw [← resolveLoads_podsMerged s fade ls P]
      exact resolveLoads_pods s fade ls P
    · rw [touched]
      exact reads.1
    · rw [touched]
  · intro m u
    refine ⟨mergedLevels_highest s.lamps.loads P, mergePod_same, fun changed => ⟨fun e read address => ?_, fun e read address => ?_, fun read => ?_⟩⟩
    · exact (mergePod_changed changed).trans (produceLampcmd_offers (s := u) read address)
    · exact (mergePod_changed changed).trans (produceLampcmd_unaddressed (s := u) read address)
    · exact (mergePod_changed changed).trans (produceLampcmd_failing (s := u) read)

/-! ## The refresh and report timers of a pod -/

/-- A refresh timer started: the period read, and the timer set by it (R100, R103). -/
theorem startRefresh_eq (s : State) (P : Fin 12) :
    startRefresh s P =
      (s.updPod P fun x => { x with refresh := some (s.now + s.tables.peekParam .refreshPeriod * Config.ms500) }).withTables
        (s.tables.param .refreshPeriod).1 := by
  rw [← TableStore.param_value]
  rfl

theorem execRefreshExpiry_due {dt : Time} {P : Fin 12} {s : State} (run : s.power = .running) (expired : Due (s.lamps.pods[P]).refresh (s.now + dt)) :
    execRefreshExpiry dt P s = .next (startRefresh (produceLampcmd (s.elapse dt) P) P) := by
  have late : due ((s.elapse dt).lamps.pods[P]).refresh (s.elapse dt).now = true := EventChannels.due_iff.mpr expired
  simp only [execRefreshExpiry, live_running run, if_pos late]

/-- An offer touches its pod's dirty mark, and no other pod (R28). -/
theorem offerLampcmd_pod (s : State) (P : Fin 12) (e : PodEntry) {Q : Fin 12} (other : Q ≠ P) :
    (offerLampcmd s P e).lamps.pods[Q] = s.lamps.pods[Q] := by
  unfold offerLampcmd
  split
  · refine (upd_other _ _ other.symm).trans ?_
    rw [State.setPort_lamps]
  · exact upd_other _ _ other.symm

/-- An offer goes to the port its entry names (R102). -/
theorem offerLampcmd_other (s : State) (P : Fin 12) (e : PodEntry) : (offerLampcmd s P e).port e.port.other = s.port e.port.other := by
  unfold offerLampcmd
  split
  · rw [State.port_updPod, State.port_setPort_other]
  · rw [State.port_updPod]

/-- The production of a LAMPCMD leaves every other pod (R28, R102). -/
theorem produceLampcmd_pod (s : State) {P Q : Fin 12} (other : Q ≠ P) : (produceLampcmd s P).lamps.pods[Q] = s.lamps.pods[Q] := by
  cases read : (s.tables.pod P).2 with
  | none =>
    rw [produceLampcmd_failing read]
    exact upd_other _ _ other.symm
  | some e =>
    by_cases address : e.address = 0
    · rw [produceLampcmd_unaddressed read address]
      exact upd_other _ _ other.symm
    · rw [produceLampcmd_offers read address]
      exact offerLampcmd_pod s P e other

/-- A load bound to a pod that falls SILENT loses its proof status (R104). -/
def forgotten (P : Fin 12) (r : LoadRecord) : LoadRecord := if r.binding.map (·.1) = some P then { r with proof := .unknown } else r

theorem forgetProof_eq (P : Fin 12) (v : Vector LoadRecord 32) (l : Fin 32) : forgetProof P v l = upd v l (forgotten P) := by
  unfold forgetProof
  cases bound : (v[l]).binding with
  | none => exact (EventChannels.upd_of_fixed (if_neg (by rw [bound]; nofun))).symm
  | some b =>
    obtain ⟨Q, k⟩ := b
    by_cases pod : Q = P
    · have same : forgotten P v[l] = { v[l] with proof := .unknown } := if_pos (by rw [bound, pod]; rfl)
      simp only [if_pos pod, upd, same]
    · refine (if_neg pod).trans (EventChannels.upd_of_fixed (if_neg ?_)).symm
      rw [bound]
      exact fun same => pod (Option.some.inj same)

/-- A pod that falls SILENT costs the loads bound to it their proof status, and no others (R104). -/
theorem foldl_forgetProof (P : Fin 12) (v : Vector LoadRecord 32) (l : Fin 32) :
    ((List.finRange 32).foldl (forgetProof P) v)[l] = forgotten P v[l] := by
  have twice (r : LoadRecord) : forgotten P (forgotten P r) = forgotten P r := by
    by_cases bound : r.binding.map (·.1) = some P
    · have lost : forgotten P r = { r with proof := .unknown } := if_pos bound
      rw [lost]
      exact if_pos bound
    · have stands : forgotten P r = r := if_neg bound
      rw [stands, stands]
  have steps : forgetProof P = fun v l => upd v l (forgotten P) := funext fun v => funext fun l => forgetProof_eq P v l
  rw [steps]
  exact (ChainSlots.foldl_upd_get twice l (List.finRange 32) v).trans (if_pos (List.mem_finRange l))

/-- The state of a part whose pod has fallen SILENT (R104). -/
def podSilent (dt : Time) (P : Fin 12) (s : State) : State :=
  let u := (s.elapse dt).updPod P fun r => { r with state := .silent, report := none }
  { u with lamps := { u.lamps with loads := (List.finRange 32).foldl (forgetProof P) s.lamps.loads } }

theorem execReportTimerExpiry_due {dt : Time} {P : Fin 12} {s : State} (run : s.power = .running)
    (expired : Due (s.lamps.pods[P]).report (s.now + dt)) : execReportTimerExpiry dt P s = .next (podSilent dt P s) := by
  have late : due ((s.elapse dt).lamps.pods[P]).report (s.elapse dt).now = true := EventChannels.due_iff.mpr expired
  simp only [execReportTimerExpiry, live_running run, if_pos late]
  rfl

theorem podSilent_fields (dt : Time) (P : Fin 12) (s : State) :
    podSilent dt P s =
      { s with now := s.now + dt, lamps := { s.lamps with loads := (podSilent dt P s).lamps.loads, pods := (podSilent dt P s).lamps.pods } } := by
  unfold podSilent
  generalize (List.finRange 32).foldl (forgetProof P) s.lamps.loads = v
  rfl

theorem podSilent_load (dt : Time) (P : Fin 12) (s : State) (l : Fin 32) : (podSilent dt P s).lamps.loads[l] = forgotten P s.lamps.loads[l] := by
  rw [← foldl_forgetProof]
  unfold podSilent
  generalize (List.finRange 32).foldl (forgetProof P) s.lamps.loads = v
  rfl

/-- The state of a part that has produced a pod's LAMPCMD and restarted its refresh timer, with the period read last (R103). -/
def restartedAt (dt : Time) (P : Fin 12) (s : State) (u : State) : State :=
  (u.updPod P fun x => { x with refresh := some (s.now + dt + s.tables.peekParam .refreshPeriod * Config.ms500) }).withTables
    ((s.tables.pod P).1.param .refreshPeriod).1

theorem restartedAt_pod (dt : Time) (P : Fin 12) (s u : State) :
    (restartedAt dt P s u).lamps.pods[P] =
      { u.lamps.pods[P] with refresh := some (s.now + dt + s.tables.peekParam .refreshPeriod * Config.ms500) } := upd_self _ _ _

/-- A restart of the timer leaves mark and ports. -/
theorem restartedAt_dirty (dt : Time) (P : Fin 12) (s u : State) : ((restartedAt dt P s u).lamps.pods[P]).dirty = (u.lamps.pods[P]).dirty := by
  rw [restartedAt_pod]

theorem restartedAt_port (dt : Time) (P : Fin 12) (s u : State) (p : PortId) : (restartedAt dt P s u).port p = u.port p := by cases p <;> rfl

theorem updPod_dirty (s : State) (P : Fin 12) (d : Bool) : ((s.updPod P fun r => { r with dirty := d }).lamps.pods[P]).dirty = d :=
  congrArg PodRecord.dirty (upd_self _ _ _)

/-- The refresh of a pod once its LAMPCMD is produced (R103). -/
theorem startRefresh_after {dt : Time} {P : Fin 12} {s u : State} (now : u.now = s.now + dt) (tables : u.tables = (s.tables.pod P).1) :
    startRefresh u P = restartedAt dt P s u := by
  rw [startRefresh_eq, now, tables, (s.tables.pod_reads P).peekParam]
  rfl

/-- An offer reads nothing (R28). -/
theorem offerLampcmd_tables (s : State) (P : Fin 12) (e : PodEntry) : (offerLampcmd s P e).tables = s.tables := by
  unfold offerLampcmd
  split
  · rw [State.updPod_tables, State.setPort_tables]
  · rfl

/-- The production of a LAMPCMD reads the pod's entry alone (R102). -/
theorem produceLampcmd_tables (s : State) (P : Fin 12) : (produceLampcmd s P).tables = (s.tables.pod P).1 := by
  cases read : (s.tables.pod P).2 with
  | none =>
    rw [produceLampcmd_failing read]
    rfl
  | some e =>
    have stands : (s.tables.pod P).1 = s.tables := congrArg State.tables (withTables_pod read)
    by_cases address : e.address = 0
    · rw [produceLampcmd_unaddressed read address, stands]
      rfl
    · rw [produceLampcmd_offers read address, offerLampcmd_tables, stands]

/-- Settles O35: the refresh by the pod's entry and its queue, and the silence of a pod. -/
theorem podTimersExpire : Obligations.PodTimersExpire := by
  refine ⟨fun dt P s run expired => ?_, fun dt P s run expired => ?_⟩
  · intro restarted s1 unbuilt
    have marked := produceLampcmd_marked (s.elapse dt) P
    have others := fun Q (other : Q ≠ P) => produceLampcmd_pod (s.elapse dt) other
    have tables := produceLampcmd_tables (s.elapse dt) P
    obtain ⟨⟨t, a, b, lamps, produced, _, fade⟩, loads⟩ := produceLampcmd_touches (s.elapse dt) P
    have now : (produceLampcmd (s.elapse dt) P).now = s.now + dt := by rw [produced]; rfl
    have refreshed := startRefresh_after (s := s) now tables
    refine ⟨restartedAt dt P s (produceLampcmd (s.elapse dt) P), (execRefreshExpiry_due run expired).trans (congrArg Host.Outcome.next refreshed),
      ?_, ?_, fun Q other => ?_, ?_, fun read => ?_, fun e read => ⟨fun address => ?_, fun address => ?_⟩⟩
    · exact ((s.tables.pod_reads P).trans (TableStore.param_reads _ _)).1
    · obtain ⟨loads', pods', fade'⟩ := lamps
      rw [produced] at loads ⊢
      simp only at loads fade
      subst loads fade
      rfl
    · exact (upd_other _ _ other.symm).trans (others Q other)
    · rw [restartedAt_pod, marked.pods P]
      rfl
    · rw [produceLampcmd_failing (s := s.elapse dt) read]
      rfl
    · rw [produceLampcmd_unaddressed (s := s.elapse dt) read address]
      rfl
    · intro q levels
      rw [produceLampcmd_offers (s := s.elapse dt) read address]
      have same := State.port_elapse dt s e.port
      obtain ⟨waiting, appended, refused⟩ := PortEvents.lampcmdCoalesces (s.elapse dt) P e
      rw [same] at waiting appended refused
      refine ⟨rfl, ?_, fun a x b queue before waits => ?_, fun none room => ?_, fun none full => ?_⟩
      · rw [restartedAt_port, offerLampcmd_other]
        exact State.port_elapse dt s e.port.other
      · rw [restartedAt_dirty, restartedAt_port, waiting a x b queue before waits, updPod_dirty, State.port_updPod, State.port_setPort]
        exact ⟨rfl, rfl⟩
      · rw [restartedAt_dirty, restartedAt_port, appended none room, updPod_dirty, State.port_updPod, State.port_setPort]
        exact ⟨rfl, rfl⟩
      · rw [restartedAt_dirty, restartedAt_port, refused none full, updPod_dirty, State.port_updPod, same]
        exact ⟨rfl, rfl⟩
  · refine ⟨podSilent dt P s, execReportTimerExpiry_due run expired, podSilent_fields dt P s, fun Q other => ?_, ?_, podSilent_load dt P s⟩
    · exact upd_other _ _ other.symm
    · exact upd_self _ _ _

end Sys2Proof.Machine.LampTimers
end
